-- ==== Sys2Proof/Word.lean ====
section
/-! DEFINITION. The word types of the packet codec block: bytes, 16-bit and 32-bit values, host addresses. -/

namespace Sys2Proof

/-- One byte (00_scope.md R12: u8). -/
abbrev Byte := BitVec 8

/-- A 16-bit unsigned value (00_scope.md R12: u16). -/
abbrev U16 := BitVec 16

/-- A 32-bit unsigned value (00_scope.md R12: u32). -/
abbrev U32 := BitVec 32

/-- A host address (20_memory.md R81: a 16-bit byte address space). -/
abbrev Addr := BitVec 16

/-- `k` bytes of 0x00 (00_scope.md R15: `zeros(k)`). -/
abbrev zeros (k : Nat) : List Byte := List.replicate k 0#8

end Sys2Proof
end

