-- ==== Sys2Proof/Config.lean ====
section
/-! DEFINITION. What one instance of the block fixes (its four parameters) and the free values the spec leaves open. -/

namespace Sys2Proof

/-- The implementation parameters (00_scope.md R7 to R10). Their ranges are `Params.InRange` (WellFormed.lean). -/
structure Params where
  /-- MAX_SLOTS: the largest slot count BUILD accepts (R7). -/
  maxSlots : Nat
  /-- PBUF_SIZE: the capacity of PBUF in bytes (R8). -/
  pbufSize : Nat
  /-- VBUF_SIZE: the capacity of VBUF in bytes (R9). -/
  vbufSize : Nat
  /-- NAME_IN_MAX: the capacity of NAME_IN in bytes (R10). -/
  nameInMax : Nat
deriving DecidableEq, Repr

/-- PV_CAP = PBUF_SIZE - 125, derived (00_scope.md R11). -/
def Params.pvCap (p : Params) : Nat := p.pbufSize - 125

/-- The four byte memories (20_memory.md R80). -/
inductive MemName where
  /-- the packet buffer -/
  | pbuf
  /-- the slot-value source -/
  | vbuf
  /-- the source-name input -/
  | nameIn
  /-- the property-value store -/
  | pv
deriving DecidableEq, Repr

namespace Config

/-- The default parameters (00_scope.md R7 to R10). -/
def defaults : Params := { maxSlots := 512, pbufSize := 638, vbufSize := 512, nameInMax := 128 }

/-- FREE VALUE: what a byte of a memory holds after the `k`-th reset until it is written
(70_reset_and_hazards.md R292: "a free draw until it is written"). Assumption log 2 and 3. -/
opaque ramAtReset : Nat → MemName → Nat → Byte

/-- FREE VALUE: the byte a host read returns while BUSY = 1, for the `k`-th draw
(20_memory.md R93: "returns an unspecified byte"). Assumption log 6. -/
opaque busyRead : Nat → Byte

/-- FREE VALUE: how many host events come between an accept and its completion, for the `k`-th draw
(70_reset_and_hazards.md R301: "a finite, unspecified number"). Assumption log 5. -/
opaque latency : Nat → Nat

end Config

end Sys2Proof
end

