-- ==== Sys2Proof/Syntax.lean ====
section
/-! DEFINITION. The commands of the block: one constructor per row of spec/opcode_table.json. -/

namespace Sys2Proof

/-- The five commands (30_encoding.md R101, Table 30-1). No command has an operand field (R100, R103). -/
inductive Instr where
  /-- BUILD, 0x01 (42_packet.md R200) -/
  | build
  /-- ENCODE, 0x02 (42_packet.md R205) -/
  | encode
  /-- DECODE, 0x03 (42_packet.md R210) -/
  | decode
  /-- CMPSLOTS, 0x04 (43_fast_path.md R230) -/
  | cmpslots
  /-- PATCH, 0x05 (43_fast_path.md R231) -/
  | patch
deriving DecidableEq, Repr

end Sys2Proof
end

