-- ==== Sys2Proof/WellFormed.lean ====
section
/-! DEFINITION. Well-formedness: of a command (nothing to check, it has no operands) and of a parameter record. -/

namespace Sys2Proof

/-- A command is well formed as it stands: it has no field whose value could be out of range (30_encoding.md R100:
"There are no other fields, no prefixes and no variable-length forms"). -/
def Instr.wf : Instr → Bool
  | .build => true
  | .encode => true
  | .decode => true
  | .cmpslots => true
  | .patch => true

/-- The parameter ranges of 00_scope.md R7 to R10. -/
abbrev Params.InRange (p : Params) : Prop :=
  p.maxSlots ≤ 3985 ∧
  126 + p.maxSlots ≤ p.pbufSize ∧ p.pbufSize ≤ 16384 ∧
  p.vbufSize ≤ 16384 ∧
  p.nameInMax ≤ 512

end Sys2Proof
end

