-- ==== Sys2Proof/Decode.lean ====
section
/-! DEFINITION. The command decoder, total on any bytes, the encoder, and the reading of an opcode-table word. -/

namespace Sys2Proof

/-- Why bytes are no command. -/
inductive DecodeError where
  /-- There is no byte to decode. -/
  | noByte
  /-- The byte is none of 0x01 to 0x05 (30_encoding.md R102). -/
  | illegalCommand (b : Byte)
deriving DecidableEq, Repr

/-- The whole byte is the opcode field (30_encoding.md R100, R101, Table 30-1); every other byte is illegal (R102). -/
def decodeByte (b : Byte) : Except DecodeError Instr :=
  match b.toNat with
  | 1 => .ok .build
  | 2 => .ok .encode
  | 3 => .ok .decode
  | 4 => .ok .cmpslots
  | 5 => .ok .patch
  | _ => .error (.illegalCommand b)

/-- The command at the head of a byte list, with the bytes after it: a command is always exactly one byte
(30_encoding.md R100). -/
def decode : List Byte → Except DecodeError (Instr × List Byte)
  | [] => .error .noByte
  | b :: rest =>
    match decodeByte b with
    | .ok i => .ok (i, rest)
    | .error e => .error e

/-- The opcode of a command (30_encoding.md Table 30-1). -/
def opcode : Instr → Byte
  | .build => 0x01
  | .encode => 0x02
  | .decode => 0x03
  | .cmpslots => 0x04
  | .patch => 0x05

/-- The bytes of a command: its opcode alone (30_encoding.md R100). -/
def encode (i : Instr) : List Byte := [opcode i]

/-- The `nbits / 8` bytes of a table word, bit 0 the least significant bit of the first byte. -/
def bytesOfTableWord (nbits w : Nat) : List Byte :=
  (List.range (nbits / 8)).map fun k => BitVec.ofNat 8 (w >>> (8 * k))

/-- The command the decoder reads from the word `w` of an opcode-table row of `nbits` bits. -/
def decodeTableWord (nbits w : Nat) : Option Instr :=
  match decode (bytesOfTableWord nbits w) with
  | .ok (i, _) => some i
  | .error _ => none

end Sys2Proof
end

