-- ==== Sys2Proof/Machine/State.lean ====
section
/-! DEFINITION. The architectural state of the block as plain data, the reasons a step can stop, and the state after reset. -/

namespace Sys2Proof.Machine

/-- Why the machine would stop with a fault. NO CONSTRUCTOR: no rule of the spec stops the block. A fault of the block
(60_exceptions.md R257) is a next state with FAULT = 1 in which the port still works (R262). Assumption log 10. -/
inductive Fault where
deriving DecidableEq, Repr

/-- Why a step would be refused. -/
inductive Refusal where
  /-- Raised by no arm of `exec`: every command has its meaning. Safe: a refusal proves nothing about the block. -/
  | notModelled (mnemonic : String)
deriving DecidableEq, Repr

/-- The values of FAULT_CODE (60_exceptions.md R256, Table 60-1); 7 to 255 are never written. -/
inductive FaultCode where
  /-- 0: no fault -/
  | none
  /-- 1 E_BAD_CMD: PENDING is not 0x01 to 0x05 -/
  | badCmd
  /-- 2 E_LEN_REG: a length register exceeds its memory's capacity -/
  | lenReg
  /-- 3 E_SLOT_COUNT: SLOT_COUNT > MAX_SLOTS -/
  | slotCount
  /-- 4 E_VALUES_RANGE: a read of VBUF at an index >= VBUF_LEN -/
  | valuesRange
  /-- 5 E_BUF_RANGE: an access of PBUF at an index >= BUF_LEN -/
  | bufRange
  /-- 6 E_NO_PACKET: ENCODE with VALID = 0 -/
  | noPacket
deriving DecidableEq, Repr

/-- The values of MAL_STAGE (10_state.md R49); 4 to 7 are never written. -/
inductive MalStage where
  /-- 0 NONE: not malformed -/
  | none
  /-- 1 SIZE: fewer than 125 bytes -/
  | size
  /-- 2 ROOT: the root length check -/
  | root
  /-- 3 FRAMING: the framing length check -/
  | framing
deriving DecidableEq, Repr

/-- STATUS, one field per listed bit (10_state.md R48); bits 7:6 are reserved and have no storage. -/
structure Status where
  busy : Bool
  fault : Bool
  valid : Bool
  malformed : Bool
  cmpEq : Bool
  overrun : Bool
deriving DecidableEq, Repr

/-- MAL_INFO (10_state.md R49); bits 7:6 are reserved and have no storage. -/
structure MalInfo where
  stage : MalStage
  rootMal : Bool
  frmMal : Bool
  dataMal : Bool
deriving DecidableEq, Repr

/-- FAULT_CODE, FAULT_INFO and FAULT_CMD (10_state.md R50 to R52). -/
structure FaultRec where
  code : FaultCode
  info : U32
  cmd : Byte
deriving DecidableEq, Repr

/-- The argument registers (10_state.md R39 to R46). -/
structure Args where
  bufLen : U16
  vbufLen : U16
  srcOffset : U16
  slotCount : U16
  seq : Byte
  univ : U16
  senderId : Vector Byte 16
  nameInLen : U16
deriving DecidableEq, Repr

/-- The RootLayer registers R_PRE to R_CID (10_state.md R34, Table 10-1). -/
structure RootLayer where
  pre : U16
  post : U16
  pid : Vector Byte 12
  flen : U16
  vec : U32
  cid : Vector Byte 16
deriving DecidableEq, Repr

/-- The FramingLayer registers F_FLEN to F_UNIV (10_state.md R35, Table 10-2). -/
structure FramingLayer where
  flen : U16
  vec : U32
  name : Vector Byte 64
  prio : Byte
  rsvd : U16
  seq : Byte
  opt : Byte
  univ : U16
deriving DecidableEq, Repr

/-- The DataLayer header registers D_FLEN to D_COUNT (10_state.md R36, Table 10-3). -/
structure DataLayer where
  flen : U16
  vec : Byte
  adt : Byte
  first : U16
  inc : U16
  count : U16
deriving DecidableEq, Repr

/-- An event from outside the block: the host's port accesses (30_encoding.md R120, R122), the `wait` loop (R121), and
the reset input (70_reset_and_hazards.md R290). -/
inductive HostOp where
  /-- the host writes byte `v` to address `a` -/
  | write (a : Addr) (v : Byte)
  /-- the host reads address `a` -/
  | read (a : Addr)
  /-- the host reads STATUS, again and again until bit 0 (BUSY) reads 0 -/
  | poll
  /-- the reset input is asserted -/
  | reset
deriving DecidableEq, Repr

/-- The MODEL's own fields for the world outside the block (assumption log 4, 5 and 6); no register of the block. -/
structure HostSide where
  /-- the events still to come, in the order they are issued (20_memory.md R92) -/
  inputs : List HostOp
  /-- the bytes the port has returned, newest first, each with the address read -/
  reads : List (Addr × Byte)
  /-- while BUSY: how many more events come before the block's completion step (70_reset_and_hazards.md R301) -/
  delay : Nat
  /-- the delays of the commands still to be accepted -/
  latencies : List Nat
  /-- how many free draws reads and latencies have taken -/
  draws : Nat
deriving DecidableEq, Repr

/-- The whole state: what 10_state.md and 20_memory.md R80 give the block, the instance's parameters, and the model's
own `resets` and `host`. A memory lists the bytes written since the last reset. -/
structure State where
  args : Args
  pending : Byte
  status : Status
  malInfo : MalInfo
  faultRec : FaultRec
  root : RootLayer
  framing : FramingLayer
  data : DataLayer
  pbuf : List Host.Cell
  vbuf : List Host.Cell
  nameIn : List Host.Cell
  pv : List Host.Cell
  params : Params
  resets : Nat
  host : HostSide
deriving DecidableEq, Repr

/-- Every argument register at its reset value (10_state.md R57, Table 10-4). -/
def Args.zero : Args :=
  { bufLen := 0, vbufLen := 0, srcOffset := 0, slotCount := 0, seq := 0, univ := 0,
    senderId := Vector.replicate 16 0, nameInLen := 0 }

/-- Every root register at its reset value (10_state.md R57: every byte 0x00). -/
def RootLayer.zero : RootLayer :=
  { pre := 0, post := 0, pid := Vector.replicate 12 0, flen := 0, vec := 0, cid := Vector.replicate 16 0 }

/-- Every framing register at its reset value (10_state.md R57). -/
def FramingLayer.zero : FramingLayer :=
  { flen := 0, vec := 0, name := Vector.replicate 64 0, prio := 0, rsvd := 0, seq := 0, opt := 0, univ := 0 }

/-- Every data header register at its reset value (10_state.md R57). -/
def DataLayer.zero : DataLayer := { flen := 0, vec := 0, adt := 0, first := 0, inc := 0, count := 0 }

/-- STATUS = 0x00 (10_state.md R57). -/
def Status.zero : Status :=
  { busy := false, fault := false, valid := false, malformed := false, cmpEq := false, overrun := false }

/-- MAL_INFO = 0x00 (10_state.md R57). -/
def MalInfo.zero : MalInfo := { stage := .none, rootMal := false, frmMal := false, dataMal := false }

/-- FAULT_CODE, FAULT_INFO and FAULT_CMD at 0 (10_state.md R57). -/
def FaultRec.zero : FaultRec := { code := .none, info := 0, cmd := 0 }

/-- No event to come, nothing read yet (assumption log 4, 5 and 6: the model's own values). -/
def HostSide.quiet : HostSide := { inputs := [], reads := [], delay := 0, latencies := [], draws := 0 }

/-- The block of an instance with parameters `p` right after its first reset (10_state.md R57): every register 0, no byte
of any memory written. -/
def State.resetWith (p : Params) : State :=
  { args := Args.zero, pending := 0, status := Status.zero, malInfo := MalInfo.zero, faultRec := FaultRec.zero,
    root := RootLayer.zero, framing := FramingLayer.zero, data := DataLayer.zero,
    pbuf := [], vbuf := [], nameIn := [], pv := [], params := p, resets := 0, host := HostSide.quiet }

/-- The machine right after reset, with the default parameters (10_state.md R57; assumption log 1). -/
def State.reset : State := State.resetWith Config.defaults

end Sys2Proof.Machine
end

