-- ==== Sys2Proof/Machine/Flags.lean ====
section
/-! DEFINITION. The flags: STATUS and MAL_INFO as the port shows them, and every flag update a command makes
(10_state.md R48, R49, R55). -/

namespace Sys2Proof.Machine

/-- FAULT_CODE as a byte (60_exceptions.md Table 60-1). -/
def FaultCode.byte : FaultCode → Byte
  | .none => 0
  | .badCmd => 1
  | .lenReg => 2
  | .slotCount => 3
  | .valuesRange => 4
  | .bufRange => 5
  | .noPacket => 6

/-- MAL_STAGE as bits 2:0 (10_state.md R49). -/
def MalStage.bits : MalStage → BitVec 3
  | .none => 0
  | .size => 1
  | .root => 2
  | .framing => 3

/-- STATUS as a byte: bits 7:6 read 0, then OVERRUN, CMP_EQ, MALFORMED, VALID, FAULT, BUSY (10_state.md R48). -/
def statusByte (st : Status) : Byte :=
  0#2 ++ BitVec.ofBool st.overrun ++ BitVec.ofBool st.cmpEq ++ BitVec.ofBool st.malformed ++
    BitVec.ofBool st.valid ++ BitVec.ofBool st.fault ++ BitVec.ofBool st.busy

/-- MAL_INFO as a byte: bits 7:6 read 0, then DATA_MAL, FRM_MAL, ROOT_MAL, MAL_STAGE (10_state.md R49). -/
def malInfoByte (m : MalInfo) : Byte :=
  0#2 ++ BitVec.ofBool m.dataMal ++ BitVec.ofBool m.frmMal ++ BitVec.ofBool m.rootMal ++ m.stage.bits

/-- `VALID <- 1; MALFORMED <- 0` and MAL_INFO <- 0x00: after BUILD, or a DECODE that is not malformed
(42_packet.md R200, R210, R213). -/
def setWellFormed (s : State) : State :=
  { s with status := { s.status with valid := true, malformed := false }, malInfo := MalInfo.zero }

/-- `MALFORMED <- 1; VALID <- 0` with the given MAL_INFO (42_packet.md R210, R212). -/
def setMalformed (m : MalInfo) (s : State) : State :=
  { s with status := { s.status with valid := false, malformed := true }, malInfo := m }

/-- MAL_INFO of a DECODE malformed at SIZE (42_packet.md R210 (a)). -/
def malSize : MalInfo := { stage := .size, rootMal := true, frmMal := true, dataMal := true }

/-- MAL_INFO of a DECODE malformed at ROOT (42_packet.md R210 (b)). -/
def malRoot : MalInfo := { stage := .root, rootMal := true, frmMal := true, dataMal := true }

/-- MAL_INFO of a DECODE malformed at FRAMING (42_packet.md R210 (c)). -/
def malFraming : MalInfo := { stage := .framing, rootMal := false, frmMal := true, dataMal := true }

/-- `CMP_EQ <- eq` (43_fast_path.md R230). -/
def setCmpEq (eq : Bool) (s : State) : State := { s with status := { s.status with cmpEq := eq } }

/-- `STATUS.OVERRUN <- 1` (60_exceptions.md R252, R254). -/
def setOverrun (s : State) : State := { s with status := { s.status with overrun := true } }

end Sys2Proof.Machine
end

