-- ==== Sys2Proof/Machine/Marshaller.lean ====
section
/-! DEFINITION. big_endian_marshaller: the pure byte primitives of 40_marshaller.md (R140: stateless). Each reader is used
only within its range (R150); an index past the end, which no command reaches, reads 0 (assumption log 13). -/

namespace Sys2Proof.Machine

/-- `be16(v) = [v[15:8], v[7:0]]` (R141). -/
def be16 (v : U16) : List Byte := [v.extractLsb' 8 8, v.extractLsb' 0 8]

/-- `rd16(B, k) = 256 * B[k] + B[k+1]` (R142). -/
def rd16 (B : List Byte) (k : Nat) : U16 := B.getD k 0 ++ B.getD (k + 1) 0

/-- `be32(v) = [v[31:24], v[23:16], v[15:8], v[7:0]]` (R143). -/
def be32 (v : U32) : List Byte :=
  [v.extractLsb' 24 8, v.extractLsb' 16 8, v.extractLsb' 8 8, v.extractLsb' 0 8]

/-- `rd32(B, k) = 2^24 * B[k] + 2^16 * B[k+1] + 2^8 * B[k+2] + B[k+3]` (R144). -/
def rd32 (B : List Byte) (k : Nat) : U32 :=
  (B.getD k 0 ++ B.getD (k + 1) 0 ++ B.getD (k + 2) 0 ++ B.getD (k + 3) 0 : BitVec (8 + 8 + 8 + 8))

/-- `fixstr(s, k)`: the first `k` bytes, or all of them and zeros up to `k` (R146). -/
def fixstr (s : List Byte) (k : Nat) : List Byte :=
  if k ≤ s.length then s.take k else s ++ zeros (k - s.length)

/-- `rdstr(B, k, m) = B[k..k+m)` (R147). -/
def rdstr (B : List Byte) (k m : Nat) : List Byte := (B.drop k).take m

/-- `id128(c) = c`: the raw 16 bytes (R148). -/
def id128 (c : Vector Byte 16) : List Byte := c.toList

/-- A byte register of `n` bytes holding the first `n` bytes of `bs` (every caller gives exactly `n`). -/
def byteReg (n : Nat) (bs : List Byte) : Vector Byte n := Vector.ofFn fun i => bs.getD i.val 0

/-- `rdid(B, k) = B[k..k+16)`, raw (R149). -/
def rdid (B : List Byte) (k : Nat) : Vector Byte 16 := byteReg 16 (rdstr B k 16)

end Sys2Proof.Machine
end

