-- ==== Sys2Proof/Machine/Layers.lean ====
section
/-! DEFINITION. The three layers of 41_layers.md: length accessors, layer images, semantic constructors, layer decodes, and
the length_validator's checks. -/

namespace Sys2Proof.Machine

/-- `len12(f) = f & 0x0FFF` (R161). -/
def len12 (f : U16) : Nat := (f &&& 0x0FFF#16).toNat

/-- `setlen(v) = 0x7000 | (v & 0x0FFF)` for a u16 `v` (R162). -/
def setlen (v : U16) : U16 := 0x7000#16 ||| (v &&& 0x0FFF#16)

/-! ### Layer images -/

/-- The 38 bytes of the RootLayer (R164). -/
def rootImage (r : RootLayer) : List Byte :=
  be16 r.pre ++ be16 r.post ++ r.pid.toList ++ be16 r.flen ++ be32 r.vec ++ id128 r.cid

/-- The 77 bytes of the FramingLayer (R165). -/
def framingImage (f : FramingLayer) : List Byte :=
  be16 f.flen ++ be32 f.vec ++ f.name.toList ++ [f.prio] ++ be16 f.rsvd ++ [f.seq] ++ [f.opt] ++ be16 f.univ

/-- The 10 header bytes of the DataLayer (R166). -/
def dataHeaderImage (d : DataLayer) : List Byte :=
  be16 d.flen ++ [d.vec] ++ [d.adt] ++ be16 d.first ++ be16 d.inc ++ be16 d.count

/-- The `10 + D_COUNT` bytes of the DataLayer, `values` being PV[0..D_COUNT) (R166). -/
def dataImage (d : DataLayer) (values : List Byte) : List Byte := dataHeaderImage d ++ values

/-! ### Semantic constructors, used by BUILD -/

/-- `ascii("ASC-E1.17")` (R167). -/
def asciiProtocolId : List Byte := [0x41, 0x53, 0x43, 0x2D, 0x45, 0x31, 0x2E, 0x31, 0x37]

/-- The RootLayer semantic constructor (R167). -/
def rootConstruct (payloadLength : U16) (senderId : Vector Byte 16) : RootLayer :=
  { pre := 0x0010
    post := 0x0000
    pid := byteReg 12 (fixstr asciiProtocolId 12)
    vec := 0x00000004
    cid := senderId
    flen := setlen payloadLength }

/-- The FramingLayer semantic constructor (R168). -/
def framingConstruct (payloadLength : U16) (sourceName : List Byte) (sequenceNumber : Byte) (universeNum : U16) :
    FramingLayer :=
  { vec := 0x00000002
    name := byteReg 64 (fixstr sourceName 64)
    prio := 100
    rsvd := 0x0000
    seq := sequenceNumber
    opt := 0x00
    univ := universeNum
    flen := setlen payloadLength }

/-- The header registers of the DataLayer semantic constructor for `n` slots (R169). -/
def dataConstruct (n : Nat) : DataLayer :=
  { vec := 0x02
    adt := 0xA1
    first := 0x0000
    inc := 0x0001
    count := BitVec.ofNat 16 (n + 1)
    flen := setlen (BitVec.ofNat 16 (10 + 1 + n)) }

/-- The property values of the DataLayer semantic constructor: the start code 0x00, then the slots (R169). -/
def propertyValues (slots : List Byte) : List Byte := 0x00#8 :: slots

/-! ### Layer decodes; `B` is PBUF[0..n) -/

/-- RootLayer decode at offset 0 (R170). -/
def rootDecode (B : List Byte) : RootLayer :=
  { pre := rd16 B 0
    post := rd16 B 2
    pid := byteReg 12 (rdstr B 4 12)
    flen := rd16 B 16
    vec := rd32 B 18
    cid := rdid B 22 }

/-- FramingLayer decode at offset 38 (R172). -/
def framingDecode (B : List Byte) : FramingLayer :=
  { flen := rd16 B 38
    vec := rd32 B 40
    name := byteReg 64 (rdstr B 44 64)
    prio := B.getD 108 0
    rsvd := rd16 B 109
    seq := B.getD 111 0
    opt := B.getD 112 0
    univ := rd16 B 113 }

/-- The header of the DataLayer decode at offset 115 (R174). -/
def dataDecode (B : List Byte) : DataLayer :=
  { flen := rd16 B 115
    vec := B.getD 117 0
    adt := B.getD 118 0
    first := rd16 B 119
    inc := rd16 B 121
    count := rd16 B 123 }

/-! ### length_validator -/

/-- The minimum-size check (R175). -/
def sizeMalformed (n : Nat) : Bool := n < 125

/-- The root length check, for `n >= 125` (R171). -/
def rootMalformed (r : RootLayer) (n : Nat) : Bool := len12 r.flen != n - 16

/-- The framing length check, for `n >= 125` (R173). -/
def framingMalformed (f : FramingLayer) (n : Nat) : Bool := len12 f.flen != n - 38

/-- `phyLength` of the packet: `38 + FramingLayer.length` (41_layers.md R177, 42_packet.md R205). -/
def packetLength (f : FramingLayer) : Nat := 38 + len12 f.flen

end Sys2Proof.Machine
end

