-- ==== Sys2Proof/Machine/Memory.lean ====
section
/-! DEFINITION. The byte memories PBUF, VBUF, NAME_IN and PV: reading, writing, and their one canonical form. -/

namespace Sys2Proof.Machine

/-- The canonical form of a memory of `cap` bytes: indices strictly rising, all below the capacity (20_memory.md R80).
An unlisted index holds NO value (nothing wrote it since the reset), so no entry can equal it. Assumption log 2. -/
abbrev Memory.wf (cap : Nat) (m : List Host.Cell) : Prop :=
  m.Pairwise (fun x y => x.1 < y.1) ∧ ∀ c ∈ m, c.1 < cap

/-- The byte at index `a`: the last byte written there (20_memory.md R96), or else the free draw
(70_reset_and_hazards.md R292). -/
def Memory.read (draw : Nat → Byte) (m : List Host.Cell) (a : Nat) : Byte :=
  (m.lookup a).getD (draw a)

/-- `MemRead(M, a, n)`: the `n` bytes from index `a` on (00_scope.md R17). -/
def Memory.readRange (draw : Nat → Byte) (m : List Host.Cell) (a n : Nat) : List Byte :=
  (List.range n).map fun i => Memory.read draw m (a + i)

/-- The cells of `bs` laid out from index `a` on. -/
def Memory.cells (a : Nat) : List Byte → List Host.Cell
  | [] => []
  | b :: bs => (a, b) :: Memory.cells (a + 1) bs

/-- `MemWrite(M, a, len(bs), bs)` (00_scope.md R17): the bytes `bs` from index `a` on; every other index as before. -/
def Memory.write (m : List Host.Cell) (a : Nat) (bs : List Byte) : List Host.Cell :=
  m.filter (fun c => c.1 < a) ++ Memory.cells a bs ++ m.filter (fun c => a + bs.length ≤ c.1)

/-- PBUF[i]. -/
def State.pbufAt (s : State) (i : Nat) : Byte := Memory.read (Config.ramAtReset s.resets .pbuf) s.pbuf i

/-- VBUF[i]. -/
def State.vbufAt (s : State) (i : Nat) : Byte := Memory.read (Config.ramAtReset s.resets .vbuf) s.vbuf i

/-- NAME_IN[i]. -/
def State.nameInAt (s : State) (i : Nat) : Byte := Memory.read (Config.ramAtReset s.resets .nameIn) s.nameIn i

/-- PV[i]. -/
def State.pvAt (s : State) (i : Nat) : Byte := Memory.read (Config.ramAtReset s.resets .pv) s.pv i

/-- PBUF[a..a+n). -/
def State.pbufRange (s : State) (a n : Nat) : List Byte :=
  Memory.readRange (Config.ramAtReset s.resets .pbuf) s.pbuf a n

/-- VBUF[a..a+n). -/
def State.vbufRange (s : State) (a n : Nat) : List Byte :=
  Memory.readRange (Config.ramAtReset s.resets .vbuf) s.vbuf a n

/-- NAME_IN[a..a+n). -/
def State.nameInRange (s : State) (a n : Nat) : List Byte :=
  Memory.readRange (Config.ramAtReset s.resets .nameIn) s.nameIn a n

/-- PV[a..a+n). -/
def State.pvRange (s : State) (a n : Nat) : List Byte :=
  Memory.readRange (Config.ramAtReset s.resets .pv) s.pv a n

end Sys2Proof.Machine
end

