-- ==== Sys2Proof/Machine/Operands.lean ====
section
/-! DEFINITION. The operands of the commands: argument registers as naturals (30_encoding.md R103: "No operand is
sign-extended or scaled"; 92_eei_decisions.md D30: sums on unbounded naturals) and the byte sequences they name. -/

namespace Sys2Proof.Machine

/-- `n`, the length of the packet in PBUF (10_state.md R39). -/
def State.bufLen (s : State) : Nat := s.args.bufLen.toNat

/-- The length of the values array in VBUF (10_state.md R40). -/
def State.vbufLen (s : State) : Nat := s.args.vbufLen.toNat

/-- The index in VBUF of the first slot value (10_state.md R41). -/
def State.srcOffset (s : State) : Nat := s.args.srcOffset.toNat

/-- `N`, the slot count (10_state.md R42). -/
def State.slotCount (s : State) : Nat := s.args.slotCount.toNat

/-- The number of valid bytes of the source name (10_state.md R46). -/
def State.nameInLen (s : State) : Nat := s.args.nameInLen.toNat

/-- The source name NAME_IN[0..NAME_IN_LEN) (42_packet.md R200). -/
def State.sourceName (s : State) : List Byte := s.nameInRange 0 s.nameInLen

/-- The slot values VBUF[SRC_OFFSET..SRC_OFFSET+N) (41_layers.md R169, 43_fast_path.md R230, R231). -/
def State.slotValues (s : State) : List Byte := s.vbufRange s.srcOffset s.slotCount

/-- The slot bytes of the packet, PBUF[126..126+N) (30_encoding.md R111, 43_fast_path.md R230). -/
def State.packetSlots (s : State) : List Byte := s.pbufRange 126 s.slotCount

/-- `B = MemRead(PBUF, 0, n)` (42_packet.md R210). -/
def State.packetBytes (s : State) : List Byte := s.pbufRange 0 s.bufLen

/-- PV[0..D_COUNT) (41_layers.md R166). -/
def State.values (s : State) : List Byte := s.pvRange 0 s.data.count.toNat

end Sys2Proof.Machine
end

