-- ==== Sys2Proof/Machine/Ops.lean ====
section
/-! DEFINITION. The shared operations of the commands: completing, taking a fault, running the checks, writing memories. -/

namespace Sys2Proof.Machine

/-- The successful end of a command: `STATUS.BUSY <- 0` (60_exceptions.md R251). -/
def finish (s : State) : State := { s with status := { s.status with busy := false } }

/-- TAKING A FAULT, `raise Fault(code, info)` (60_exceptions.md R257): FAULT, FAULT_CODE, FAULT_INFO and FAULT_CMD are
set, BUSY falls, nothing else changes. There is no vector, no saved program counter and no return (R262); reset alone
leaves the fault state (R263, `applyReset`). -/
def takeFault (code : FaultCode) (info : Nat) (s : State) : State :=
  { s with
    status := { s.status with fault := true, busy := false }
    faultRec := { code := code, info := BitVec.ofNat 32 info, cmd := s.pending } }

/-- `check ok else raise Fault(code, info)` (00_scope.md R18). -/
structure Check where
  ok : Bool
  code : FaultCode
  info : Nat
deriving DecidableEq, Repr

/-- The first check that fails, in the order written (00_scope.md R18, 60_exceptions.md R260). -/
def firstFailed (cs : List Check) : Option Check := cs.find? fun c => !c.ok

/-- A command that runs its checks on `s` and, if all hold, ends successfully in `done`; a failed check discards every
write (60_exceptions.md R257, R258). -/
def guarded (cs : List Check) (s done : State) : Host.Outcome State Fault Refusal :=
  match firstFailed cs with
  | some c => .next (takeFault c.code c.info s)
  | none => .next (finish done)

/-! ### The checks (60_exceptions.md Table 60-1) -/

/-- `check BUF_LEN <= PBUF_SIZE else raise Fault(E_LEN_REG, 0x0004)`. -/
def checkBufLen (s : State) : Check := ⟨s.bufLen ≤ s.params.pbufSize, .lenReg, 0x0004⟩

/-- `check VBUF_LEN <= VBUF_SIZE else raise Fault(E_LEN_REG, 0x0006)`. -/
def checkVbufLen (s : State) : Check := ⟨s.vbufLen ≤ s.params.vbufSize, .lenReg, 0x0006⟩

/-- `check NAME_IN_LEN <= NAME_IN_MAX else raise Fault(E_LEN_REG, 0x0020)`. -/
def checkNameInLen (s : State) : Check := ⟨s.nameInLen ≤ s.params.nameInMax, .lenReg, 0x0020⟩

/-- `check N <= MAX_SLOTS else raise Fault(E_SLOT_COUNT, N)`. -/
def checkSlotCount (s : State) : Check := ⟨s.slotCount ≤ s.params.maxSlots, .slotCount, s.slotCount⟩

/-- `if N > 0: check SRC_OFFSET + N <= VBUF_LEN else raise Fault(E_VALUES_RANGE, max(SRC_OFFSET, VBUF_LEN))`. -/
def checkValuesRange (s : State) : Check :=
  ⟨s.slotCount = 0 ∨ s.srcOffset + s.slotCount ≤ s.vbufLen, .valuesRange, max s.srcOffset s.vbufLen⟩

/-- `if N > 0: check 126 + N <= BUF_LEN else raise Fault(E_BUF_RANGE, max(126, BUF_LEN))`. -/
def checkSlotsInBuf (s : State) : Check :=
  ⟨s.slotCount = 0 ∨ 126 + s.slotCount ≤ s.bufLen, .bufRange, max 126 s.bufLen⟩

/-- `check 112 <= BUF_LEN else raise Fault(E_BUF_RANGE, 111)`. -/
def checkSeqInBuf (s : State) : Check := ⟨112 ≤ s.bufLen, .bufRange, 111⟩

/-- `check VALID = 1 else raise Fault(E_NO_PACKET, 0)`. -/
def checkValid (s : State) : Check := ⟨s.status.valid, .noPacket, 0⟩

/-- `check L <= PBUF_SIZE and 125 + D_COUNT <= L else raise Fault(E_BUF_RANGE, L)`, L the packet's length. -/
def checkPacketFits (s : State) : Check :=
  ⟨packetLength s.framing ≤ s.params.pbufSize ∧ 125 + s.data.count.toNat ≤ packetLength s.framing,
    .bufRange, packetLength s.framing⟩

/-! ### Memory writes -/

/-- `MemWrite(PBUF, a, len(bs), bs)`. -/
def writePbuf (a : Nat) (bs : List Byte) (s : State) : State := { s with pbuf := Memory.write s.pbuf a bs }

/-- `MemWrite(VBUF, a, len(bs), bs)`. -/
def writeVbuf (a : Nat) (bs : List Byte) (s : State) : State := { s with vbuf := Memory.write s.vbuf a bs }

/-- `MemWrite(NAME_IN, a, len(bs), bs)`. -/
def writeNameIn (a : Nat) (bs : List Byte) (s : State) : State := { s with nameIn := Memory.write s.nameIn a bs }

/-- `MemWrite(PV, a, len(bs), bs)`. -/
def writePv (a : Nat) (bs : List Byte) (s : State) : State := { s with pv := Memory.write s.pv a bs }

end Sys2Proof.Machine
end

