-- ==== Sys2Proof/Machine/FastPath.lean ====
section
/-! DEFINITION. The fast-path commands CMPSLOTS and PATCH (43_fast_path.md). -/

namespace Sys2Proof.Machine

/-! ### CMPSLOTS -/

/-- The checks of CMPSLOTS, in order (43_fast_path.md R230). -/
def cmpslotsChecks (s : State) : List Check :=
  [checkBufLen s, checkVbufLen s, checkSlotsInBuf s, checkValuesRange s]

/-- `eq`: 1 when every compared byte is equal, so 1 when N = 0 (43_fast_path.md R230, R233). -/
def slotsEqual (s : State) : Bool := s.packetSlots == s.slotValues

/-- CMPSLOTS (43_fast_path.md R230). -/
def execCmpslots (s : State) : Host.Outcome State Fault Refusal :=
  guarded (cmpslotsChecks s) s (setCmpEq (slotsEqual s) s)

/-! ### PATCH -/

/-- The checks of PATCH, in order (43_fast_path.md R231). -/
def patchChecks (s : State) : List Check :=
  [checkBufLen s, checkVbufLen s, checkSeqInBuf s, checkSlotsInBuf s, checkValuesRange s]

/-- The writes of PATCH: PBUF[126..126+N), then PBUF[111] (43_fast_path.md R231). -/
def patchWrites (s : State) : State :=
  writePbuf 111 [s.args.seq] (writePbuf 126 s.slotValues s)

/-- PATCH (43_fast_path.md R231). -/
def execPatch (s : State) : Host.Outcome State Fault Refusal :=
  guarded (patchChecks s) s (patchWrites s)

end Sys2Proof.Machine
end

