-- ==== Sys2Proof/Machine/Packet.lean ====
section
/-! DEFINITION. The packet commands BUILD, ENCODE and DECODE (42_packet.md). -/

namespace Sys2Proof.Machine

/-! ### BUILD -/

/-- The checks of BUILD, in order (42_packet.md R200). -/
def buildChecks (s : State) : List Check :=
  [checkVbufLen s, checkNameInLen s, checkSlotCount s, checkValuesRange s]

/-- The DataLayer header BUILD constructs (42_packet.md R200 step 1). -/
def builtData (s : State) : DataLayer := dataConstruct s.slotCount

/-- The FramingLayer BUILD constructs, payload length `77 + len12(D_FLEN)` (42_packet.md R200 step 2). -/
def builtFraming (s : State) : FramingLayer :=
  framingConstruct (BitVec.ofNat 16 (77 + len12 (builtData s).flen)) s.sourceName s.args.seq s.args.univ

/-- The RootLayer BUILD constructs, payload length `22 + len12(F_FLEN)` (42_packet.md R200 step 3). -/
def builtRoot (s : State) : RootLayer :=
  rootConstruct (BitVec.ofNat 16 (22 + len12 (builtFraming s).flen)) s.args.senderId

/-- The writes of BUILD: the three layers, PV[0..N+1), VALID, MALFORMED and MAL_INFO (42_packet.md R200). -/
def buildWrites (s : State) : State :=
  setWellFormed <| writePv 0 (propertyValues s.slotValues)
    { s with data := builtData s, framing := builtFraming s, root := builtRoot s }

/-- BUILD (42_packet.md R200). -/
def execBuild (s : State) : Host.Outcome State Fault Refusal :=
  guarded (buildChecks s) s (buildWrites s)

/-! ### ENCODE -/

/-- The checks of ENCODE, in order (42_packet.md R205). -/
def encodeChecks (s : State) : List Check := [checkValid s, checkPacketFits s]

/-- `img`: the three layer images at 0, 38 and 115 over `zeros(L)` (42_packet.md R205). The images fill the bytes up to
`125 + D_COUNT <= L`; zeros stand in the rest. -/
def packetImage (s : State) : List Byte :=
  rootImage s.root ++ framingImage s.framing ++ dataImage s.data s.values ++
    zeros (packetLength s.framing - (125 + s.data.count.toNat))

/-- The writes of ENCODE: PBUF[0..L) and BUF_LEN (42_packet.md R205). -/
def encodeWrites (s : State) : State :=
  writePbuf 0 (packetImage s)
    { s with args := { s.args with bufLen := BitVec.ofNat 16 (packetLength s.framing) } }

/-- ENCODE (42_packet.md R205). -/
def execEncode (s : State) : Host.Outcome State Fault Refusal :=
  guarded (encodeChecks s) s (encodeWrites s)

/-! ### DECODE -/

/-- The payload check of the DataLayer decode: `check 125 + c <= n else raise Fault(E_BUF_RANGE, n)` (41_layers.md R174). -/
def checkPayload (B : List Byte) (n : Nat) : Check := ⟨125 + (dataDecode B).count.toNat ≤ n, .bufRange, n⟩

/-- The checks of DECODE, in order: the capacity check, and the payload check, which is made only by a buffer that passes
the size, root and framing stages (42_packet.md R210, 60_exceptions.md R260). -/
def decodeChecks (s : State) : List Check :=
  let n := s.bufLen
  let B := s.packetBytes
  if sizeMalformed n || rootMalformed (rootDecode B) n || framingMalformed (framingDecode B) n then [checkBufLen s]
  else [checkBufLen s, checkPayload B n]

/-- The writes of DECODE, stage by stage (42_packet.md R210 (a) to (d)). -/
def decodeWrites (s : State) : State :=
  let n := s.bufLen
  let B := s.packetBytes
  if sizeMalformed n then setMalformed malSize s
  else
    let s := { s with root := rootDecode B }
    if rootMalformed s.root n then setMalformed malRoot s
    else
      let s := { s with framing := framingDecode B }
      if framingMalformed s.framing n then setMalformed malFraming s
      else
        setWellFormed <| writePv 0 (rdstr B 125 (dataDecode B).count.toNat) { s with data := dataDecode B }

/-- DECODE (42_packet.md R210). -/
def execDecode (s : State) : Host.Outcome State Fault Refusal :=
  guarded (decodeChecks s) s (decodeWrites s)

end Sys2Proof.Machine
end

