-- ==== Sys2Proof/Machine/Engine.lean ====
section
/-! DEFINITION. The block's own turn: when it comes, and the completion step. -/

namespace Sys2Proof.Machine

/-- Whether the block moves next: a command is in progress, and its delay is over or no event is left to come
(70_reset_and_hazards.md R301, R302: the completion step is always enabled while BUSY = 1, and is taken). -/
def blockTurn (s : State) : Bool := s.status.busy && (s.host.delay == 0 || s.host.inputs.isEmpty)

/-- The completion step: the command PENDING names, or E_BAD_CMD (60_exceptions.md R251, 30_encoding.md R102). -/
def complete (s : State) : Host.Outcome State Fault Refusal :=
  match decode [s.pending] with
  | .ok (i, _) => exec i s
  | .error _ => .next (takeFault .badCmd s.pending.toNat s)

/-- The state in which the block's next step completes the command byte `b`: accepted, its delay over. -/
def acceptNow (b : Byte) (s : State) : State :=
  { s with pending := b, status := { s.status with busy := true }, host := { s.host with delay := 0 } }

end Sys2Proof.Machine
end

