-- ==== Sys2Proof/Machine/Port.lean ====
section
/-! DEFINITION. The host port: the address map, byte reads and writes, accepting a command, and the reset input. -/

namespace Sys2Proof.Machine

/-! ### Reading -/

/-- The byte of a u16 register at its lower address, the most significant one (20_memory.md R87). -/
def highByte (r : U16) : Byte := r.extractLsb' 8 8

/-- The byte of a u16 register at its higher address, the least significant one (20_memory.md R87). -/
def lowByte (r : U16) : Byte := r.extractLsb' 0 8

/-- A parameter as a u16 register (10_state.md R53). -/
def paramReg (n : Nat) : U16 := BitVec.ofNat 16 n

/-- What the control and argument region reads at `n` (10_state.md R54, Table 10-4): the registers below, SENDER_ID at
0x10 to 0x1F, and 0x00 at CMD (R47) and at every reserved address. -/
def controlByte (s : State) (n : Nat) : Byte :=
  match n with
  | 0x01 => statusByte s.status
  | 0x02 => s.faultRec.code.byte
  | 0x03 => malInfoByte s.malInfo
  | 0x04 => highByte s.args.bufLen
  | 0x05 => lowByte s.args.bufLen
  | 0x06 => highByte s.args.vbufLen
  | 0x07 => lowByte s.args.vbufLen
  | 0x08 => highByte s.args.srcOffset
  | 0x09 => lowByte s.args.srcOffset
  | 0x0A => highByte s.args.slotCount
  | 0x0B => lowByte s.args.slotCount
  | 0x0C => s.args.seq
  | 0x0E => highByte s.args.univ
  | 0x0F => lowByte s.args.univ
  | 0x20 => highByte s.args.nameInLen
  | 0x21 => lowByte s.args.nameInLen
  | 0x24 => s.faultRec.info.extractLsb' 24 8
  | 0x25 => s.faultRec.info.extractLsb' 16 8
  | 0x26 => s.faultRec.info.extractLsb' 8 8
  | 0x27 => s.faultRec.info.extractLsb' 0 8
  | 0x28 => s.faultRec.cmd
  | 0x30 => highByte (paramReg s.params.pbufSize)
  | 0x31 => lowByte (paramReg s.params.pbufSize)
  | 0x32 => highByte (paramReg s.params.vbufSize)
  | 0x33 => lowByte (paramReg s.params.vbufSize)
  | 0x34 => highByte (paramReg s.params.nameInMax)
  | 0x35 => lowByte (paramReg s.params.nameInMax)
  | 0x36 => highByte (paramReg s.params.maxSlots)
  | 0x37 => lowByte (paramReg s.params.maxSlots)
  | n => if 0x10 ≤ n ∧ n < 0x20 then s.args.senderId.toList.getD (n - 0x10) 0x00 else 0x00

/-- The field register image, which reads at 0x0100 + wire offset (10_state.md section 2, 20_memory.md R87). -/
def fieldImage (s : State) : List Byte :=
  rootImage s.root ++ framingImage s.framing ++ dataHeaderImage s.data

/-- The byte a memory window shows: the memory below its capacity, 0x00 above (20_memory.md R82). -/
def windowByte (cap i : Nat) (b : Byte) : Byte := if i < cap then b else 0x00

/-- The byte at host address `a` while BUSY = 0 (20_memory.md R81 to R83, Table 20-1). -/
def portByte (s : State) (a : Addr) : Byte :=
  if a.toNat < 0x0100 then controlByte s a.toNat
  else if a.toNat < 0x0200 then (fieldImage s).getD (a.toNat - 0x0100) 0x00
  else if a.toNat < 0x0400 then windowByte s.params.nameInMax (a.toNat - 0x0200) (s.nameInAt (a.toNat - 0x0200))
  else if a.toNat < 0x4000 then 0x00
  else if a.toNat < 0x8000 then windowByte s.params.pbufSize (a.toNat - 0x4000) (s.pbufAt (a.toNat - 0x4000))
  else if a.toNat < 0xC000 then windowByte s.params.vbufSize (a.toNat - 0x8000) (s.vbufAt (a.toNat - 0x8000))
  else windowByte s.params.pvCap (a.toNat - 0xC000) (s.pvAt (a.toNat - 0xC000))

/-- Whether a host read of `a` returns a free draw: any address but STATUS while BUSY = 1 (20_memory.md R93). -/
def readIsDraw (s : State) (a : Addr) : Bool := s.status.busy && a != 0x0001

/-- The byte a host read of `a` returns (20_memory.md R93, 60_exceptions.md R255). -/
def readValue (s : State) (a : Addr) : Byte :=
  if readIsDraw s a then Config.busyRead s.host.draws else portByte s a

/-- A host read: the byte goes to the host; nothing of the block changes (20_memory.md R91, 60_exceptions.md R255). -/
def hostRead (a : Addr) (s : State) : State :=
  { s with host := { s.host with
      reads := (a, readValue s a) :: s.host.reads
      draws := if readIsDraw s a then s.host.draws + 1 else s.host.draws } }

/-! ### Writing -/

/-- `r` with its byte at the lower address, the most significant one, replaced (20_memory.md R87, R89). -/
def setHigh (r : U16) (v : Byte) : U16 := v ++ lowByte r

/-- `r` with its byte at the higher address, the least significant one, replaced (20_memory.md R87, R89). -/
def setLow (r : U16) (v : Byte) : U16 := highByte r ++ v

/-- A host write of `v` to the control and argument region at `n`, other than CMD: the argument registers take it, every
read-only or reserved address ignores it (10_state.md R54, Table 10-4). -/
def writeArgs (n : Nat) (v : Byte) (r : Args) : Args :=
  match n with
  | 0x04 => { r with bufLen := setHigh r.bufLen v }
  | 0x05 => { r with bufLen := setLow r.bufLen v }
  | 0x06 => { r with vbufLen := setHigh r.vbufLen v }
  | 0x07 => { r with vbufLen := setLow r.vbufLen v }
  | 0x08 => { r with srcOffset := setHigh r.srcOffset v }
  | 0x09 => { r with srcOffset := setLow r.srcOffset v }
  | 0x0A => { r with slotCount := setHigh r.slotCount v }
  | 0x0B => { r with slotCount := setLow r.slotCount v }
  | 0x0C => { r with seq := v }
  | 0x0E => { r with univ := setHigh r.univ v }
  | 0x0F => { r with univ := setLow r.univ v }
  | 0x20 => { r with nameInLen := setHigh r.nameInLen v }
  | 0x21 => { r with nameInLen := setLow r.nameInLen v }
  | n => if 0x10 ≤ n ∧ n < 0x20 then { r with senderId := r.senderId.setIfInBounds (n - 0x10) v } else r

/-- The delay of the command just accepted: the next of the given latencies, or a free draw (70_reset_and_hazards.md R301;
assumption log 5). -/
def nextDelay (h : HostSide) : HostSide :=
  match h.latencies with
  | l :: ls => { h with delay := l, latencies := ls }
  | [] => { h with delay := Config.latency h.draws, draws := h.draws + 1 }

/-- Accepting command byte `b`: `PENDING <- b`, `STATUS.BUSY <- 1`, nothing else of the block (60_exceptions.md R250). -/
def accept (b : Byte) (s : State) : State :=
  { s with pending := b, status := { s.status with busy := true }, host := nextDelay s.host }

/-- A host write to CMD while BUSY = 0: accepted (60_exceptions.md R250), or ignored while FAULT = 1 (R253). -/
def writeCmd (b : Byte) (s : State) : State := if s.status.fault then s else accept b s

/-- A host write while BUSY = 0 (10_state.md R54, 20_memory.md R81 to R83, Table 20-1). -/
def writeIdle (a : Addr) (v : Byte) (s : State) : State :=
  if a.toNat = 0x0000 then writeCmd v s
  else if a.toNat < 0x0100 then { s with args := writeArgs a.toNat v s.args }
  else if 0x0200 ≤ a.toNat ∧ a.toNat < 0x0200 + s.params.nameInMax ∧ a.toNat < 0x0400 then writeNameIn (a.toNat - 0x0200) [v] s
  else if 0x4000 ≤ a.toNat ∧ a.toNat < 0x4000 + s.params.pbufSize ∧ a.toNat < 0x8000 then writePbuf (a.toNat - 0x4000) [v] s
  else if 0x8000 ≤ a.toNat ∧ a.toNat < 0x8000 + s.params.vbufSize ∧ a.toNat < 0xC000 then writeVbuf (a.toNat - 0x8000) [v] s
  else s

/-- A host write: while BUSY = 1 it is ignored and sets OVERRUN, whatever its address (60_exceptions.md R252, R254). -/
def hostWrite (a : Addr) (v : Byte) (s : State) : State :=
  if s.status.busy then setOverrun s else writeIdle a v s

/-! ### The reset input -/

/-- The reset input: every register to its reset value, whatever the block is doing; an accepted command is abandoned; the
memories hold fresh free draws (70_reset_and_hazards.md R290 to R292). The parameters stay. -/
def applyReset (s : State) : State :=
  { State.resetWith s.params with resets := s.resets + 1, host := s.host }

/-! ### One event -/

/-- The events left after the first, and one event of the delay spent. -/
def popInput (rest : List HostOp) (s : State) : State :=
  { s with host := { s.host with inputs := rest, delay := s.host.delay - 1 } }

/-- The effect of one event from outside, `rest` being the events after it. `wait` reads STATUS once, and stays the next
event while BUSY reads 1 (30_encoding.md R121). -/
def hostTurn (op : HostOp) (rest : List HostOp) (s : State) : State :=
  match op with
  | .write a v => hostWrite a v (popInput rest s)
  | .read a => hostRead a (popInput rest s)
  | .poll => hostRead 0x0001 (popInput (if s.status.busy then .poll :: rest else rest) s)
  | .reset => applyReset (popInput rest s)

end Sys2Proof.Machine
end

