-- ==== Sys2Proof/Machine/Step.lean ====
section
/-! DEFINITION. step: one event of one agent; and where the host's instruction words are put. -/

namespace Sys2Proof.Machine

/-- One step: the block completes its command when it is its turn; else the next event from outside happens; with none to
come an idle block holds all its state (60_exceptions.md R268, 70_reset_and_hazards.md R302). -/
def step (s : State) : Host.Outcome State Fault Refusal :=
  if blockTurn s then complete s
  else
    match s.host.inputs with
    | [] => .next s
    | op :: rest => .next (hostTurn op rest s)

/-- `s` with the command whose bits are `w` accepted, so that the very next step completes it (assumption log 8). A command
is 8 bits whatever `nbits` (30_encoding.md R100). -/
def State.withFetchWord (s : State) (_nbits w : Nat) : State := acceptNow (BitVec.ofNat 8 w) s

end Sys2Proof.Machine
end

