-- ==== Sys2Proof/Machine/Script.lean ====
section
/-! DEFINITION. The host script notation of 30_encoding.md R120 to R122: statements, pseudo-statements, and their expansion
into the port accesses that `step` performs. Comments and the text of the notation are not modelled (assumption log 16). -/

namespace Sys2Proof.Machine

/-- The register names of 10_state.md Table 10-4, which stand for their lowest address in a script (R120), and the memory
window names, which stand for their window's base (95_test_vectors.md part 3). -/
inductive RegName where
  | cmd | status | faultCode | malInfo | bufLen | vbufLen | srcOffset | slotCount | seq | univ | senderId | nameInLen
  | faultInfo | faultCmd | paramPbufSize | paramVbufSize | paramNameInMax | paramMaxSlots
  | nameIn | pbuf | vbuf | pv
deriving DecidableEq, Repr

/-- The lowest host address of a register (10_state.md Table 10-4) or the base of a window (20_memory.md Table 20-1). -/
def RegName.addr : RegName → Addr
  | .cmd => 0x0000
  | .status => 0x0001
  | .faultCode => 0x0002
  | .malInfo => 0x0003
  | .bufLen => 0x0004
  | .vbufLen => 0x0006
  | .srcOffset => 0x0008
  | .slotCount => 0x000A
  | .seq => 0x000C
  | .univ => 0x000E
  | .senderId => 0x0010
  | .nameInLen => 0x0020
  | .faultInfo => 0x0024
  | .faultCmd => 0x0028
  | .paramPbufSize => 0x0030
  | .paramVbufSize => 0x0032
  | .paramNameInMax => 0x0034
  | .paramMaxSlots => 0x0036
  | .nameIn => 0x0200
  | .pbuf => 0x4000
  | .vbuf => 0x8000
  | .pv => 0xC000

/-- A script statement (R120) or pseudo-statement (R121). -/
inductive Stmt where
  /-- `wr A, V` -/
  | wr (a : Addr) (v : Byte)
  /-- `rd A` -/
  | rd (a : Addr)
  /-- `expect A, V`: a read of A; the assertion has no effect on the block -/
  | expect (a : Addr) (v : Byte)
  /-- `wr16 A, V` -/
  | wr16 (a : Addr) (v : U16)
  /-- `wrn A, b0 b1 ... bk` -/
  | wrn (a : Addr) (bs : List Byte)
  /-- `wait` -/
  | wait
  /-- `cmd MNEMONIC` -/
  | cmd (i : Instr)
  /-- `ascii A, "text"` -/
  | ascii (a : Addr) (text : List Char)
deriving DecidableEq, Repr

/-- `wr A, b0`, `wr A+1, b1`, and so on (R121). -/
def writesFrom (a : Addr) : List Byte → List HostOp
  | [] => []
  | b :: bs => .write a b :: writesFrom (a + 1) bs

/-- The ASCII code of a character, its low 8 bits (R121). -/
def asciiCode (c : Char) : Byte := BitVec.ofNat 8 c.toNat

/-- The port accesses a statement expands to (R121, R122). -/
def Stmt.expand : Stmt → List HostOp
  | .wr a v => [.write a v]
  | .rd a => [.read a]
  | .expect a _ => [.read a]
  | .wr16 a v => [.write a (v.extractLsb' 8 8), .write (a + 1) (v.extractLsb' 0 8)]
  | .wrn a bs => writesFrom a bs
  | .wait => [.poll]
  | .cmd i => [.write RegName.cmd.addr (opcode i), .poll]
  | .ascii a text => writesFrom a (text.map asciiCode)

/-- The encoding of a script: its expanded port accesses, in order (R122). -/
def encodeScript (script : List Stmt) : List HostOp := script.flatMap Stmt.expand

/-- The state with a script's accesses to come after those already there (R120: "executed by the host in order"). -/
def withScript (script : List Stmt) (s : State) : State :=
  { s with host := { s.host with inputs := s.host.inputs ++ encodeScript script } }

/-- `expect A, V` holds when the read of `a` returned `v` (R120); to be held against `host.reads`. -/
def expectation : Stmt → Option (Addr × Byte)
  | .expect a v => some (a, v)
  | _ => none

end Sys2Proof.Machine
end

