-- ==== Sys2Proof/Safety.lean ====
section
/-! DEFINITION. What counts as a good state and a good run, in the terms the statements use: the contracts of the commands,
the wire view of PBUF, raising a fault, the host-writable addresses, and the invariant every step keeps. -/

namespace Sys2Proof.Machine

/-! ### Contracts: when a command's checks all pass -/

/-- The inputs BUILD accepts: none of its checks fails (42_packet.md R200). -/
abbrev BuildAccepts (s : State) : Prop :=
  s.vbufLen ≤ s.params.vbufSize ∧ s.nameInLen ≤ s.params.nameInMax ∧ s.slotCount ≤ s.params.maxSlots ∧
    (s.slotCount = 0 ∨ s.srcOffset + s.slotCount ≤ s.vbufLen)

/-- VALID = 1 and the packet's length fits (42_packet.md R205). -/
abbrev EncodeAccepts (s : State) : Prop :=
  s.status.valid = true ∧ packetLength s.framing ≤ s.params.pbufSize ∧ 125 + s.data.count.toNat ≤ packetLength s.framing

/-- The ranges CMPSLOTS and PATCH share: the length registers within capacity, the slots within both buffers
(43_fast_path.md R230, R231). -/
abbrev SlotsAccept (s : State) : Prop :=
  s.bufLen ≤ s.params.pbufSize ∧ s.vbufLen ≤ s.params.vbufSize ∧
    (s.slotCount = 0 ∨ 126 + s.slotCount ≤ s.bufLen) ∧ (s.slotCount = 0 ∨ s.srcOffset + s.slotCount ≤ s.vbufLen)

/-- `s` with other slot values and another sequence number for the host to send, all other inputs the same
(43_fast_path.md R232: "slot values S2 in VBUF and SEQ = Q2"). -/
def withNewSlots (vbuf : List Host.Cell) (vbufLen srcOffset : U16) (seq : Byte) (s : State) : State :=
  { s with
    vbuf := vbuf
    args := { s.args with vbufLen := vbufLen, srcOffset := srcOffset, seq := seq } }

/-- `t` holds the packet `s` holds: all that ENCODE reads of it (30_encoding.md Table 30-2). The host may have done
anything to the rest. -/
def SamePacket (s t : State) : Prop :=
  t.status.valid = s.status.valid ∧ t.root = s.root ∧ t.framing = s.framing ∧ t.data = s.data ∧ t.pv = s.pv ∧
    t.params = s.params ∧ t.resets = s.resets

/-- `t` holds the buffer `s` holds: all that DECODE reads (30_encoding.md Table 30-2). -/
def SameBuffer (s t : State) : Prop :=
  t.pbuf = s.pbuf ∧ t.args.bufLen = s.args.bufLen ∧ t.params = s.params ∧ t.resets = s.resets

/-! ### The wire view of PBUF -/

/-- The big-endian u16 at offset `k` of PBUF (30_encoding.md R113). -/
def State.wire16 (s : State) (k : Nat) : U16 := s.pbufAt k ++ s.pbufAt (k + 1)

/-- The big-endian u32 at offset `k` of PBUF (30_encoding.md R113). -/
def State.wire32 (s : State) (k : Nat) : U32 :=
  (s.pbufAt k ++ s.pbufAt (k + 1) ++ s.pbufAt (k + 2) ++ s.pbufAt (k + 3) : BitVec (8 + 8 + 8 + 8))

/-- `r` holds the RootLayer at offset 0 of PBUF (41_layers.md R170). -/
def WireRoot (s : State) (r : RootLayer) : Prop :=
  r.pre = s.wire16 0 ∧ r.post = s.wire16 2 ∧ (∀ k (h : k < 12), r.pid[k] = s.pbufAt (4 + k)) ∧
    r.flen = s.wire16 16 ∧ r.vec = s.wire32 18 ∧ ∀ k (h : k < 16), r.cid[k] = s.pbufAt (22 + k)

/-- `f` holds the FramingLayer at offset 38 of PBUF (41_layers.md R172). -/
def WireFraming (s : State) (f : FramingLayer) : Prop :=
  f.flen = s.wire16 38 ∧ f.vec = s.wire32 40 ∧ (∀ k (h : k < 64), f.name[k] = s.pbufAt (44 + k)) ∧
    f.prio = s.pbufAt 108 ∧ f.rsvd = s.wire16 109 ∧ f.seq = s.pbufAt 111 ∧ f.opt = s.pbufAt 112 ∧ f.univ = s.wire16 113

/-- `d` holds the DataLayer header at offset 115 of PBUF (41_layers.md R174). -/
def WireData (s : State) (d : DataLayer) : Prop :=
  d.flen = s.wire16 115 ∧ d.vec = s.pbufAt 117 ∧ d.adt = s.pbufAt 118 ∧ d.first = s.wire16 119 ∧
    d.inc = s.wire16 121 ∧ d.count = s.wire16 123

/-! ### Faults -/

/-- `s` with the fault `code`, `info` raised by the command in PENDING, and nothing else changed (60_exceptions.md R257). -/
def raised (code : FaultCode) (info : Nat) (s : State) : State :=
  { s with
    status := { s.status with fault := true, busy := false }
    faultRec := { code := code, info := BitVec.ofNat 32 info, cmd := s.pending } }

/-! ### Host addresses -/

/-- The addresses whose byte a host write changes while the block is idle: the argument registers, and NAME_IN, PBUF and
VBUF below their capacity (10_state.md Table 10-4, 20_memory.md Table 20-1). -/
abbrev hostWritable (p : Params) (a : Addr) : Prop :=
  (0x0004 ≤ a.toNat ∧ a.toNat ≤ 0x0021 ∧ a.toNat ≠ 0x000D) ∨
  (0x0200 ≤ a.toNat ∧ a.toNat < 0x0400 ∧ a.toNat < 0x0200 + p.nameInMax) ∨
  (0x4000 ≤ a.toNat ∧ a.toNat < 0x8000 ∧ a.toNat < 0x4000 + p.pbufSize) ∨
  (0x8000 ≤ a.toNat ∧ a.toNat < 0xC000 ∧ a.toNat < 0x8000 + p.vbufSize)

/-- The reserved addresses of Table 10-4 and Table 20-1 (20_memory.md R83). -/
abbrev reservedAddr (a : Addr) : Prop :=
  a.toNat = 0x000D ∨ a.toNat = 0x0022 ∨ a.toNat = 0x0023 ∨ (0x0029 ≤ a.toNat ∧ a.toNat ≤ 0x002F) ∨
  (0x0038 ≤ a.toNat ∧ a.toNat ≤ 0x00FF) ∨ (0x017D ≤ a.toNat ∧ a.toNat ≤ 0x01FF) ∨
  (0x0400 ≤ a.toNat ∧ a.toNat ≤ 0x3FFF)

/-- The window addresses at or above their memory's capacity (20_memory.md R82). -/
abbrev beyondCapacity (p : Params) (a : Addr) : Prop :=
  (0x0200 ≤ a.toNat ∧ a.toNat ≤ 0x03FF ∧ p.nameInMax ≤ a.toNat - 0x0200) ∨
  (0x4000 ≤ a.toNat ∧ a.toNat ≤ 0x7FFF ∧ p.pbufSize ≤ a.toNat - 0x4000) ∨
  (0x8000 ≤ a.toNat ∧ a.toNat ≤ 0xBFFF ∧ p.vbufSize ≤ a.toNat - 0x8000) ∨
  (0xC000 ≤ a.toNat ∧ p.pvCap ≤ a.toNat - 0xC000)

/-! ### The invariant -/

/-- What holds of the state in every run of an instance whose parameters are in range. -/
structure Inv (s : State) : Prop where
  /-- the parameters are in their ranges (00_scope.md R7 to R10) -/
  params_inRange : s.params.InRange
  /-- PBUF is canonical and within its capacity (20_memory.md R80, 60_exceptions.md R258) -/
  pbuf_wf : Memory.wf s.params.pbufSize s.pbuf
  /-- VBUF likewise -/
  vbuf_wf : Memory.wf s.params.vbufSize s.vbuf
  /-- NAME_IN likewise -/
  nameIn_wf : Memory.wf s.params.nameInMax s.nameIn
  /-- PV likewise -/
  pv_wf : Memory.wf s.params.pvCap s.pv
  /-- the packet invariant (10_state.md R56) -/
  packet_fits : s.status.valid = true →
    125 + s.data.count.toNat ≤ packetLength s.framing ∧ packetLength s.framing ≤ s.params.pbufSize ∧
      s.data.count.toNat ≤ s.params.pvCap
  /-- the root length counts 22 bytes more than the framing length (41_layers.md R163, R171, R173) -/
  root_counts_framing : s.status.valid = true → len12 s.root.flen = len12 s.framing.flen + 22
  /-- a packet is malformed or held, not both, and MAL_INFO says which check found it (42_packet.md R212, R213) -/
  malInfo_agrees : if s.status.malformed = true
    then s.status.valid = false ∧ (s.malInfo = malSize ∨ s.malInfo = malRoot ∨ s.malInfo = malFraming)
    else s.malInfo = MalInfo.zero
  /-- the fault records are 0 while FAULT = 0 (10_state.md R50 to R52) -/
  no_fault_no_record : s.status.fault = false → s.faultRec = FaultRec.zero
  /-- FAULT_CODE names the fault that set FAULT (10_state.md R50) -/
  fault_has_code : s.status.fault = true → s.faultRec.code ≠ .none
  /-- FAULT_INFO bits 31:16 read 0 (60_exceptions.md R259) -/
  info_is_u16 : s.faultRec.info.toNat < 2 ^ 16
  /-- no command runs while FAULT = 1 (60_exceptions.md R263) -/
  busy_not_fault : s.status.busy = true → s.status.fault = false

end Sys2Proof.Machine
end

