-- ==== Sys2Proof/Certificates/Slice0/Obligations.lean ====
section
/-! DEFINITION. The statements about the packet codec block, for the provers. -/

open Sys2Proof Sys2Proof.Machine

/-! ### Encoding -/

/-- 30_encoding.md R101, Table 30-1: the five opcodes are the legal command bytes, and each decodes to its command. -/
def Obligations.OpcodeMapHasFiveLegalBytes : Prop :=
  decodeByte 0x01 = .ok .build ∧ decodeByte 0x02 = .ok .encode ∧ decodeByte 0x03 = .ok .decode ∧
  decodeByte 0x04 = .ok .cmpslots ∧ decodeByte 0x05 = .ok .patch ∧
  (∀ b : Byte, (∃ i, decodeByte b = .ok i) ↔ 1 ≤ b.toNat ∧ b.toNat ≤ 5) ∧
  ∀ b : Byte, (b.toNat = 0 ∨ 6 ≤ b.toNat) → decodeByte b = .error (.illegalCommand b)

/-- 30_encoding.md R100: a command is one byte; decoding what `encode` wrote gives the command and leaves the rest. -/
def Obligations.DecodeOfEncode : Prop :=
  ∀ (i : Instr) (rest : List Byte), decode (encode i ++ rest) = .ok (i, rest) ∧ (encode i).length = 1 ∧
    decodeTableWord 8 (opcode i).toNat = some i

/-- Sanity of the decoder on bytes written out bit by bit from opcode_table.json. -/
def Obligations.WrittenOutBytesDecode : Prop :=
  decode [0b00000001#8] = .ok (.build, []) ∧ decode [0b00000101#8, 0b00000010#8] = .ok (.patch, [0b00000010#8]) ∧
  decodeTableWord 8 0b00000011 = some .decode ∧ decodeTableWord 8 0b00000000 = none ∧
  decodeTableWord 8 0b00000110 = none ∧ decode [] = .error .noByte

/-! ### The step -/

/-- 60_exceptions.md R251: when the block's turn has come, a step is the completion of the command PENDING names. The
second clause is the same for a command placed by `withFetchWord` (assumption log 8). When the turn comes, after `delay` more
events, is the model's form of the unspecified latency (assumption log 5). -/
def Obligations.StepRunsTheDecodedCommand : Prop :=
  (∀ (s : State) (i : Instr), s.status.busy = true → (s.host.delay = 0 ∨ s.host.inputs = []) →
    decode [s.pending] = .ok (i, []) → step s = exec i s) ∧
  ∀ (s : State) (i : Instr), step (s.withFetchWord 8 (opcode i).toNat) =
    exec i { s with pending := opcode i, status := { s.status with busy := true }, host := { s.host with delay := 0 } }

/-- 30_encoding.md R102: an illegal byte is accepted like any command, and its completion raises E_BAD_CMD. -/
def Obligations.IllegalByteIsAcceptedThenFaults : Prop :=
  (∀ (s : State) (b : Byte) (rest : List HostOp), (b.toNat = 0 ∨ 6 ≤ b.toNat) →
    s.status.busy = false → s.status.fault = false → s.host.inputs = .write 0x0000 b :: rest →
    ∃ h, step s = .next { s with pending := b, status := { s.status with busy := true }, host := h }) ∧
  ∀ s : State, (s.pending.toNat = 0 ∨ 6 ≤ s.pending.toNat) → s.status.busy = true →
    (s.host.delay = 0 ∨ s.host.inputs = []) → step s = .next (raised .badCmd s.pending.toNat s)

/-- 60_exceptions.md R250: accepting a command byte latches it and raises BUSY; nothing else of the block changes. -/
def Obligations.AcceptLatchesPendingAndRaisesBusy : Prop :=
  ∀ (s : State) (b : Byte) (rest : List HostOp),
    s.status.busy = false → s.status.fault = false → s.host.inputs = .write 0x0000 b :: rest →
    ∃ h, step s = .next { s with pending := b, status := { s.status with busy := true }, host := h } ∧
      h.inputs = rest ∧ h.reads = s.host.reads

/-- 60_exceptions.md R253: a CMD write while FAULT = 1 and BUSY = 0 changes nothing of the block. -/
def Obligations.CommandWriteWhileFaultIsIgnored : Prop :=
  ∀ (s : State) (b : Byte) (rest : List HostOp),
    s.status.busy = false → s.status.fault = true → s.host.inputs = .write 0x0000 b :: rest →
    ∃ h, step s = .next { s with host := h } ∧ h.inputs = rest ∧ h.reads = s.host.reads

/-- 60_exceptions.md R252, R254: while BUSY a write to any address, CMD included, only sets OVERRUN. That the write spends
one event of the model's `delay`, and comes while some of it is left, is the model's form of the unspecified latency
(assumption log 5). -/
def Obligations.WriteWhileBusyOnlySetsOverrun : Prop :=
  ∀ (s : State) (a : Addr) (v : Byte) (rest : List HostOp),
    s.status.busy = true → s.host.delay ≠ 0 → s.host.inputs = .write a v :: rest →
    step s = .next { s with status := { s.status with overrun := true },
                            host := { s.host with inputs := rest, delay := s.host.delay - 1 } }

/-- 60_exceptions.md R255, 20_memory.md R93: a host read changes nothing of the block. STATUS reads exactly, busy or not;
while BUSY every other address reads a free draw, in the model's form of it (assumption log 6); while idle it reads the
port's byte. -/
def Obligations.HostReadChangesNothing : Prop :=
  ∀ (s : State) (a : Addr) (rest : List HostOp),
    (s.status.busy = true → s.host.delay ≠ 0) → s.host.inputs = .read a :: rest →
    ∃ h v, step s = .next { s with host := h } ∧ h.inputs = rest ∧ h.reads = (a, v) :: s.host.reads ∧
      (a = 0x0001 → v = statusByte s.status) ∧
      (a ≠ 0x0001 → s.status.busy = true → v = Config.busyRead s.host.draws ∧ h.draws = s.host.draws + 1) ∧
      (s.status.busy = false → v = portByte s a ∧ h.draws = s.host.draws)

/-- 30_encoding.md R121: `wait` reads STATUS, and is over when BUSY reads 0. The one repeated event is the model's form of
the loop (assumption log 7). -/
def Obligations.WaitPollsStatusUntilIdle : Prop :=
  ∀ (s : State) (rest : List HostOp), (s.status.busy = true → s.host.delay ≠ 0) → s.host.inputs = .poll :: rest →
    ∃ h, step s = .next { s with host := h } ∧ h.reads = (0x0001, statusByte s.status) :: s.host.reads ∧
      h.inputs = if s.status.busy then .poll :: rest else rest

/-- 60_exceptions.md R268: an idle block holds all state, and no event but a CMD write starts it. -/
def Obligations.IdleHoldsStateUntilCommandWrite : Prop :=
  (∀ s : State, s.status.busy = false → s.host.inputs = [] → step s = .next s) ∧
  ∀ s t : State, s.status.busy = false → step s = .next t → t.status.busy = true →
    s.status.fault = false ∧ ∃ b rest, s.host.inputs = .write 0x0000 b :: rest ∧ t.pending = b

/-- 70_reset_and_hazards.md R302, R291, 60_exceptions.md R251: a busy block is idle within `delay + 1` steps; and unless a
reset is among the events to come, it gets there by the completion step of the very command in PENDING, before which
nothing of the block has changed but OVERRUN. The delay is the model's form of the unspecified latency (assumption log 5). -/
def Obligations.EveryAcceptedCommandCompletes : Prop :=
  ∀ s : State, s.status.busy = true →
    (∃ k t, k ≤ s.host.delay + 1 ∧ Sys2Proof.core.run k s = .next t ∧ t.status.busy = false) ∧
    (HostOp.reset ∉ s.host.inputs →
      ∃ k t u, k ≤ s.host.delay ∧ Sys2Proof.core.run k s = .next t ∧
        t = { s with status := { s.status with overrun := t.status.overrun }, host := t.host } ∧
        step t = .next u ∧ u.status.busy = false ∧
        (∀ i, decodeByte s.pending = .ok i → exec i t = .next u) ∧
        (∀ e, decodeByte s.pending = .error e → u = raised .badCmd s.pending.toNat t))

/-- No rule of the spec stops the machine: every step, from every state, answers a next state (assumption log 10). -/
def Obligations.StepAlwaysAnswersNext : Prop :=
  ∀ s : State, ∃ t, step s = .next t

/-- 95_test_vectors.md P5: a SEQ write after an accepted ENCODE has two allowed outcomes, by the latency drawn. The latency
as a count of host events is the model's form of the unspecified delay (assumption log 5). -/
def Obligations.WriteRacingTheCompletionHasTwoOutcomes : Prop :=
  ∀ (s : State) (v : Byte) (l : Nat) (ls : List Nat), s.status.busy = false → s.status.fault = false →
    EncodeAccepts s → s.host.inputs = [.write 0x0000 0x02, .write 0x000C v] → s.host.latencies = l :: ls →
    ∃ t, Sys2Proof.core.run 3 s = .next t ∧ t.status.busy = false ∧ t.status.fault = false ∧
      t.args.bufLen = BitVec.ofNat 16 (packetLength s.framing) ∧
      (l = 0 → t.args.seq = v ∧ t.status.overrun = s.status.overrun) ∧
      (l ≠ 0 → t.args.seq = s.args.seq ∧ t.status.overrun = true)

/-! ### The host port -/

/-- 10_state.md R54, R37, 20_memory.md R81 to R83, Table 20-1: an idle write to any address but CMD changes, of all the
bytes the port reads, the byte at that address if it is writable, and no other. And what those bytes are: below capacity
each window reads byte `i` of its own memory at its base + `i`, and every argument register reads at its own address, the
16-bit ones big-endian and byte `k` of SENDER_ID at 0x0010 + `k`. -/
def Obligations.IdleWriteThenRead : Prop :=
  (∀ (s : State) (a a' : Addr) (v : Byte), s.status.busy = false → a ≠ 0x0000 →
    (a' = a → hostWritable s.params a → portByte (hostWrite a v s) a' = v) ∧
    (a' ≠ a ∨ ¬ hostWritable s.params a → portByte (hostWrite a v s) a' = portByte s a')) ∧
  ∀ s : State,
    (∀ i, i < s.params.nameInMax → i < 0x0200 → portByte s (BitVec.ofNat 16 (0x0200 + i)) = s.nameInAt i) ∧
    (∀ i, i < s.params.pbufSize → i < 0x4000 → portByte s (BitVec.ofNat 16 (0x4000 + i)) = s.pbufAt i) ∧
    (∀ i, i < s.params.vbufSize → i < 0x4000 → portByte s (BitVec.ofNat 16 (0x8000 + i)) = s.vbufAt i) ∧
    (∀ i, i < s.params.pvCap → i < 0x4000 → portByte s (BitVec.ofNat 16 (0xC000 + i)) = s.pvAt i) ∧
    portByte s 0x0004 ++ portByte s 0x0005 = s.args.bufLen ∧
    portByte s 0x0006 ++ portByte s 0x0007 = s.args.vbufLen ∧
    portByte s 0x0008 ++ portByte s 0x0009 = s.args.srcOffset ∧
    portByte s 0x000A ++ portByte s 0x000B = s.args.slotCount ∧
    portByte s 0x000C = s.args.seq ∧
    portByte s 0x000E ++ portByte s 0x000F = s.args.univ ∧
    (∀ k (h : k < 16), portByte s (BitVec.ofNat 16 (0x0010 + k)) = s.args.senderId[k]) ∧
    portByte s 0x0020 ++ portByte s 0x0021 = s.args.nameInLen

/-- 20_memory.md R82, R83: reserved addresses and window bytes beyond capacity read 0x00, and an idle write to them is
ignored. -/
def Obligations.ReservedReadsZeroAndIgnoresWrites : Prop :=
  ∀ (s : State) (a : Addr) (v : Byte), reservedAddr a ∨ beyondCapacity s.params a →
    portByte s a = 0x00 ∧ (s.status.busy = false → hostWrite a v s = s)

/-- 10_state.md R38: the field registers and PV are read-only to the host: an idle write to their addresses has no effect. -/
def Obligations.FieldRegistersIgnoreHostWrites : Prop :=
  ∀ (s : State) (a : Addr) (v : Byte), s.status.busy = false →
    ((0x0100 ≤ a.toNat ∧ a.toNat ≤ 0x017C) ∨ 0xC000 ≤ a.toNat) → hostWrite a v s = s

/-- 10_state.md R53: the parameter registers read the parameters, and every step keeps the parameters. -/
def Obligations.ParameterRegistersAreConstant : Prop :=
  (∀ s : State, s.params.InRange →
    (portByte s 0x0030 ++ portByte s 0x0031 : U16).toNat = s.params.pbufSize ∧
    (portByte s 0x0032 ++ portByte s 0x0033 : U16).toNat = s.params.vbufSize ∧
    (portByte s 0x0034 ++ portByte s 0x0035 : U16).toNat = s.params.nameInMax ∧
    (portByte s 0x0036 ++ portByte s 0x0037 : U16).toNat = s.params.maxSlots) ∧
  ∀ s t : State, step s = .next t → t.params = s.params

/-- 10_state.md R48 to R52, 60_exceptions.md Table 60-1, 42_packet.md R212: STATUS, MAL_INFO and the fault records on the
port: every bit of STATUS and MAL_INFO, the numbers of MAL_STAGE and FAULT_CODE, the values of MAL_INFO a DECODE leaves,
FAULT_INFO big-endian, and FAULT_CMD. -/
def Obligations.StatusBitsOnThePort : Prop :=
  ∀ s : State,
    (portByte s 0x0001).getLsbD 0 = s.status.busy ∧ (portByte s 0x0001).getLsbD 1 = s.status.fault ∧
    (portByte s 0x0001).getLsbD 2 = s.status.valid ∧ (portByte s 0x0001).getLsbD 3 = s.status.malformed ∧
    (portByte s 0x0001).getLsbD 4 = s.status.cmpEq ∧ (portByte s 0x0001).getLsbD 5 = s.status.overrun ∧
    (portByte s 0x0001).getLsbD 6 = false ∧ (portByte s 0x0001).getLsbD 7 = false ∧
    (portByte { s with malInfo := { s.malInfo with stage := .none } } 0x0003).extractLsb' 0 3 = 0#3 ∧
    (portByte { s with malInfo := { s.malInfo with stage := .size } } 0x0003).extractLsb' 0 3 = 1#3 ∧
    (portByte { s with malInfo := { s.malInfo with stage := .root } } 0x0003).extractLsb' 0 3 = 2#3 ∧
    (portByte { s with malInfo := { s.malInfo with stage := .framing } } 0x0003).extractLsb' 0 3 = 3#3 ∧
    (portByte s 0x0003).getLsbD 3 = s.malInfo.rootMal ∧ (portByte s 0x0003).getLsbD 4 = s.malInfo.frmMal ∧
    (portByte s 0x0003).getLsbD 5 = s.malInfo.dataMal ∧
    (portByte s 0x0003).getLsbD 6 = false ∧ (portByte s 0x0003).getLsbD 7 = false ∧
    portByte { s with malInfo := ⟨.none, false, false, false⟩ } 0x0003 = 0x00 ∧
    portByte { s with malInfo := ⟨.size, true, true, true⟩ } 0x0003 = 0x39 ∧
    portByte { s with malInfo := ⟨.root, true, true, true⟩ } 0x0003 = 0x3A ∧
    portByte { s with malInfo := ⟨.framing, false, true, true⟩ } 0x0003 = 0x33 ∧
    portByte { s with faultRec := { s.faultRec with code := .none } } 0x0002 = 0 ∧
    portByte { s with faultRec := { s.faultRec with code := .badCmd } } 0x0002 = 1 ∧
    portByte { s with faultRec := { s.faultRec with code := .lenReg } } 0x0002 = 2 ∧
    portByte { s with faultRec := { s.faultRec with code := .slotCount } } 0x0002 = 3 ∧
    portByte { s with faultRec := { s.faultRec with code := .valuesRange } } 0x0002 = 4 ∧
    portByte { s with faultRec := { s.faultRec with code := .bufRange } } 0x0002 = 5 ∧
    portByte { s with faultRec := { s.faultRec with code := .noPacket } } 0x0002 = 6 ∧
    (portByte s 0x0024 ++ portByte s 0x0025 ++ portByte s 0x0026 ++ portByte s 0x0027 : BitVec (8 + 8 + 8 + 8)) =
      s.faultRec.info ∧
    portByte s 0x0028 = s.faultRec.cmd

/-- 20_memory.md R89: a write of one byte of a 16-bit argument register changes only that byte of it, and only that
register; stated for the six of them, at both addresses. -/
def Obligations.ByteWriteChangesHalfAnArgument : Prop :=
  ∀ (s : State) (v : Byte), s.status.busy = false →
    hostWrite 0x0004 v s = { s with args := { s.args with bufLen := v ++ s.args.bufLen.extractLsb' 0 8 } } ∧
    hostWrite 0x0005 v s = { s with args := { s.args with bufLen := s.args.bufLen.extractLsb' 8 8 ++ v } } ∧
    hostWrite 0x0006 v s = { s with args := { s.args with vbufLen := v ++ s.args.vbufLen.extractLsb' 0 8 } } ∧
    hostWrite 0x0007 v s = { s with args := { s.args with vbufLen := s.args.vbufLen.extractLsb' 8 8 ++ v } } ∧
    hostWrite 0x0008 v s = { s with args := { s.args with srcOffset := v ++ s.args.srcOffset.extractLsb' 0 8 } } ∧
    hostWrite 0x0009 v s = { s with args := { s.args with srcOffset := s.args.srcOffset.extractLsb' 8 8 ++ v } } ∧
    hostWrite 0x000A v s = { s with args := { s.args with slotCount := v ++ s.args.slotCount.extractLsb' 0 8 } } ∧
    hostWrite 0x000B v s = { s with args := { s.args with slotCount := s.args.slotCount.extractLsb' 8 8 ++ v } } ∧
    hostWrite 0x000E v s = { s with args := { s.args with univ := v ++ s.args.univ.extractLsb' 0 8 } } ∧
    hostWrite 0x000F v s = { s with args := { s.args with univ := s.args.univ.extractLsb' 8 8 ++ v } } ∧
    hostWrite 0x0020 v s = { s with args := { s.args with nameInLen := v ++ s.args.nameInLen.extractLsb' 0 8 } } ∧
    hostWrite 0x0021 v s = { s with args := { s.args with nameInLen := s.args.nameInLen.extractLsb' 8 8 ++ v } }

/-! ### Marshaller and layers -/

/-- 40_marshaller.md R145: the big-endian round trips. -/
def Obligations.BigEndianRoundTrip : Prop :=
  (∀ v : U16, rd16 (be16 v) 0 = v) ∧ ∀ v : U32, rd32 (be32 v) 0 = v

/-- 40_marshaller.md R146: `fixstr` gives exactly `k` bytes: those of `s`, then zeros. -/
def Obligations.FixedStringTruncatesOrPads : Prop :=
  ∀ (s : List Byte) (k : Nat), (fixstr s k).length = k ∧
    ∀ i, i < k → (fixstr s k).getD i 0 = if i < s.length then s.getD i 0 else 0

/-- 41_layers.md R160 to R162: the length setter keeps the value modulo 4096 under the nibble 0x7; the getter ignores the
nibble. -/
def Obligations.LengthFieldAccessors : Prop :=
  ∀ v : U16, len12 (setlen v) = v.toNat % 4096 ∧ (setlen v).extractLsb' 12 4 = 0x7#4 ∧
    len12 v = v.toNat % 4096 ∧ (setlen v).toNat = 0x7000 + v.toNat % 4096

/-! ### BUILD -/

/-- 42_packet.md R200, 41_layers.md R167 to R169: BUILD on inputs it accepts completes, with every field register, the
whole of PV, the flags, and its frame. -/
def Obligations.BuildWritesLayersAndValues : Prop :=
  ∀ s : State, s.params.maxSlots ≤ 3985 → BuildAccepts s →
    ∃ t, exec .build s = .next t ∧
      t = { s with
        root := t.root, framing := t.framing, data := t.data, pv := t.pv
        status := { s.status with valid := true, malformed := false, busy := false }
        malInfo := { stage := .none, rootMal := false, frmMal := false, dataMal := false } } ∧
      t.root = { pre := 0x0010, post := 0x0000, pid := t.root.pid, flen := BitVec.ofNat 16 (0x7000 + 110 + s.slotCount),
                 vec := 0x00000004, cid := s.args.senderId } ∧
      t.root.pid.toList = [0x41, 0x53, 0x43, 0x2D, 0x45, 0x31, 0x2E, 0x31, 0x37, 0x00, 0x00, 0x00] ∧
      t.framing = { flen := BitVec.ofNat 16 (0x7000 + 88 + s.slotCount), vec := 0x00000002, name := t.framing.name,
                    prio := 100, rsvd := 0x0000, seq := s.args.seq, opt := 0x00, univ := s.args.univ } ∧
      (∀ k (h : k < 64), t.framing.name[k] = if k < s.nameInLen then s.nameInAt k else 0x00) ∧
      t.data = { flen := BitVec.ofNat 16 (0x7000 + 11 + s.slotCount), vec := 0x02, adt := 0xA1, first := 0x0000,
                 inc := 0x0001, count := BitVec.ofNat 16 (s.slotCount + 1) } ∧
      t.pvAt 0 = 0x00 ∧ (∀ i, i < s.slotCount → t.pvAt (1 + i) = s.vbufAt (s.srcOffset + i)) ∧
      ∀ i, s.slotCount + 1 ≤ i → t.pvAt i = s.pvAt i

/-- 42_packet.md R202: the closed forms of the lengths and the count after a successful BUILD of N slots. -/
def Obligations.BuildLengthsInClosedForm : Prop :=
  ∀ s t : State, s.params.maxSlots ≤ 3985 → BuildAccepts s → exec .build s = .next t →
    t.data.flen.toNat = 0x7000 + 11 + s.slotCount ∧ t.framing.flen.toNat = 0x7000 + 88 + s.slotCount ∧
    t.root.flen.toNat = 0x7000 + 110 + s.slotCount ∧ t.data.count.toNat = s.slotCount + 1 ∧
    38 + len12 t.framing.flen = 126 + s.slotCount ∧ 126 + s.slotCount = 125 + t.data.count.toNat

/-- 42_packet.md R201: BUILD either faults, on an input outside its contract, or yields VALID = 1 and MALFORMED = 0. -/
def Obligations.BuildNeverLeavesMalformedPacket : Prop :=
  ∀ s t : State, s.status.fault = false → exec .build s = .next t →
    (¬ BuildAccepts s ∧ t.status.fault = true) ∨
    (BuildAccepts s ∧ t.status.fault = false ∧ t.status.valid = true ∧ t.status.malformed = false)

/-- 42_packet.md R200, 60_exceptions.md R256, R260: the faults of BUILD, each with its code and information, in order. -/
def Obligations.BuildFaultsInOrder : Prop :=
  ∀ s : State,
    (s.params.vbufSize < s.vbufLen → exec .build s = .next (raised .lenReg 0x0006 s)) ∧
    (s.vbufLen ≤ s.params.vbufSize → s.params.nameInMax < s.nameInLen →
      exec .build s = .next (raised .lenReg 0x0020 s)) ∧
    (s.vbufLen ≤ s.params.vbufSize → s.nameInLen ≤ s.params.nameInMax → s.params.maxSlots < s.slotCount →
      exec .build s = .next (raised .slotCount s.slotCount s)) ∧
    (s.vbufLen ≤ s.params.vbufSize → s.nameInLen ≤ s.params.nameInMax → s.slotCount ≤ s.params.maxSlots →
      0 < s.slotCount → s.vbufLen < s.srcOffset + s.slotCount →
      exec .build s = .next (raised .valuesRange (max s.srcOffset s.vbufLen) s))

/-! ### ENCODE -/

/-- 42_packet.md R205, 41_layers.md R164 to R166: ENCODE of a held packet completes: PBUF holds every field register as
stored, at its wire offset and big-endian, then PV[0..D_COUNT), then zeros up to L; BUF_LEN is L, and nothing else changes;
PBUF at L and above keeps its bytes. It holds of any field registers, also those a DECODE stored. -/
def Obligations.EncodeWritesThePacketImage : Prop :=
  ∀ s : State, EncodeAccepts s →
    ∃ t, exec .encode s = .next t ∧
      t = { s with pbuf := t.pbuf, args := { s.args with bufLen := t.args.bufLen },
                   status := { s.status with busy := false } } ∧
      t.args.bufLen.toNat = 38 + s.framing.flen.toNat % 4096 ∧
      WireRoot t s.root ∧ WireFraming t s.framing ∧ WireData t s.data ∧
      (∀ k, k < s.data.count.toNat → t.pbufAt (125 + k) = s.pvAt k) ∧
      (∀ k, 125 + s.data.count.toNat ≤ k → k < t.args.bufLen.toNat → t.pbufAt k = 0x00) ∧
      ∀ k, t.args.bufLen.toNat ≤ k → t.pbufAt k = s.pbufAt k

/-- 30_encoding.md R110, Table 30-3: the bytes BUILD then ENCODE write, offset by offset, and the packet's length. -/
def Obligations.BuildThenEncodeWritesTheWireTable : Prop :=
  ∀ s : State, s.params.InRange → BuildAccepts s →
    ∃ t u, exec .build s = .next t ∧ exec .encode t = .next u ∧
      u.args.bufLen.toNat = 126 + s.slotCount ∧
      u.wire16 0 = 0x0010 ∧ u.wire16 2 = 0x0000 ∧
      (∀ k, k < 12 → u.pbufAt (4 + k) =
        ([0x41, 0x53, 0x43, 0x2D, 0x45, 0x31, 0x2E, 0x31, 0x37, 0x00, 0x00, 0x00] : List Byte).getD k 0) ∧
      u.wire16 16 = 0x7000 ||| BitVec.ofNat 16 (110 + s.slotCount) ∧ u.wire32 18 = 0x00000004 ∧
      (∀ k (h : k < 16), u.pbufAt (22 + k) = s.args.senderId[k]) ∧
      u.wire16 38 = 0x7000 ||| BitVec.ofNat 16 (88 + s.slotCount) ∧ u.wire32 40 = 0x00000002 ∧
      (∀ k, k < 64 → u.pbufAt (44 + k) = if k < s.nameInLen then s.nameInAt k else 0x00) ∧
      u.pbufAt 108 = 0x64 ∧ u.wire16 109 = 0x0000 ∧ u.pbufAt 111 = s.args.seq ∧ u.pbufAt 112 = 0x00 ∧
      u.wire16 113 = s.args.univ ∧
      u.wire16 115 = 0x7000 ||| BitVec.ofNat 16 (11 + s.slotCount) ∧ u.pbufAt 117 = 0x02 ∧ u.pbufAt 118 = 0xA1 ∧
      u.wire16 119 = 0x0000 ∧ u.wire16 121 = 0x0001 ∧ u.wire16 123 = BitVec.ofNat 16 (s.slotCount + 1) ∧
      u.pbufAt 125 = 0x00 ∧ ∀ i, i < s.slotCount → u.pbufAt (126 + i) = s.vbufAt (s.srcOffset + i)

/-- 42_packet.md R207: after BUILD with N slots, ENCODE sets BUF_LEN = 125 + N + 1 and writes the count N + 1. -/
def Obligations.EncodedLengthOfBuiltPacket : Prop :=
  ∀ s t u : State, s.params.InRange → BuildAccepts s → exec .build s = .next t → exec .encode t = .next u →
    u.args.bufLen.toNat = 125 + s.slotCount + 1 ∧
    [u.pbufAt 123, u.pbufAt 124] = be16 (BitVec.ofNat 16 (s.slotCount + 1))

/-- 42_packet.md R206: in every state the invariant allows, ENCODE with VALID = 1 raises no fault. -/
def Obligations.EncodeRangeCheckNeverFails : Prop :=
  ∀ s t : State, Inv s → s.status.valid = true → exec .encode s = .next t →
    t.status.fault = s.status.fault ∧ t.faultRec = s.faultRec

/-- 42_packet.md R205, 60_exceptions.md R260: the faults of ENCODE in order; with VALID = 0 it is E_NO_PACKET. -/
def Obligations.EncodeFaultsInOrder : Prop :=
  ∀ s : State,
    (s.status.valid = false → exec .encode s = .next (raised .noPacket 0 s)) ∧
    (s.status.valid = true →
      (s.params.pbufSize < packetLength s.framing ∨ packetLength s.framing < 125 + s.data.count.toNat) →
      exec .encode s = .next (raised .bufRange (packetLength s.framing) s))

/-- 42_packet.md R205: "ENCODE twice in a row writes the same bytes twice": the second leaves the whole state as it is. -/
def Obligations.SecondEncodeChangesNothing : Prop :=
  ∀ s t : State, exec .encode s = .next t → exec .encode t = .next t

/-- 20_memory.md R87: after an ENCODE that raises no fault the field register image reads like the packet's first 125
bytes. -/
def Obligations.FieldImageReadsLikeThePacket : Prop :=
  ∀ s t : State, EncodeAccepts s → exec .encode s = .next t →
    ∀ k, k < 125 → portByte t (BitVec.ofNat 16 (0x0100 + k)) = t.pbufAt k

/-! ### DECODE -/

/-- 41_layers.md R175, 42_packet.md R210 (a): a buffer below 125 bytes is malformed at SIZE, and no layer is parsed. -/
def Obligations.DecodeOfShortBufferIsMalformed : Prop :=
  ∀ s : State, s.bufLen ≤ s.params.pbufSize → s.bufLen < 125 →
    exec .decode s = .next { s with
      status := { s.status with valid := false, malformed := true, busy := false }
      malInfo := { stage := .size, rootMal := true, frmMal := true, dataMal := true } }

/-- 41_layers.md R170, R171, 42_packet.md R210 (b): a wrong root length is malformed at ROOT; only the root registers take
the wire's values. -/
def Obligations.DecodeWithWrongRootLength : Prop :=
  ∀ s : State, s.bufLen ≤ s.params.pbufSize → 125 ≤ s.bufLen → len12 (s.wire16 16) ≠ s.bufLen - 16 →
    ∃ r, WireRoot s r ∧ exec .decode s = .next { s with
      root := r
      status := { s.status with valid := false, malformed := true, busy := false }
      malInfo := { stage := .root, rootMal := true, frmMal := true, dataMal := true } }

/-- 41_layers.md R172, R173, 42_packet.md R210 (c): a wrong framing length is malformed at FRAMING; the root and framing
registers take the wire's values. -/
def Obligations.DecodeWithWrongFramingLength : Prop :=
  ∀ s : State, s.bufLen ≤ s.params.pbufSize → 125 ≤ s.bufLen → len12 (s.wire16 16) = s.bufLen - 16 →
    len12 (s.wire16 38) ≠ s.bufLen - 38 →
    ∃ r f, WireRoot s r ∧ WireFraming s f ∧ exec .decode s = .next { s with
      root := r, framing := f
      status := { s.status with valid := false, malformed := true, busy := false }
      malInfo := { stage := .framing, rootMal := false, frmMal := true, dataMal := true } }

/-- 42_packet.md R210 (d), R213: a buffer that passes the checks is decoded whole: the three layers take the wire's values,
PV the payload, VALID is 1 and MAL_INFO 0x00; nothing else changes, PBUF and BUF_LEN included. -/
def Obligations.DecodeOfGoodPacketFillsTheLayers : Prop :=
  ∀ s : State, s.bufLen ≤ s.params.pbufSize → 125 ≤ s.bufLen → len12 (s.wire16 16) = s.bufLen - 16 →
    len12 (s.wire16 38) = s.bufLen - 38 → 125 + (s.wire16 123).toNat ≤ s.bufLen →
    ∃ t, exec .decode s = .next t ∧
      t = { s with
        root := t.root, framing := t.framing, data := t.data, pv := t.pv
        status := { s.status with valid := true, malformed := false, busy := false }
        malInfo := { stage := .none, rootMal := false, frmMal := false, dataMal := false } } ∧
      WireRoot s t.root ∧ WireFraming s t.framing ∧ WireData s t.data ∧
      (∀ i, i < t.data.count.toNat → t.pvAt i = s.pbufAt (125 + i)) ∧
      ∀ i, t.data.count.toNat ≤ i → t.pvAt i = s.pvAt i

/-- 42_packet.md R210, 60_exceptions.md R260: the faults of DECODE: a BUF_LEN above the capacity, and a count past the
buffer in a packet whose size, root and framing checks pass. -/
def Obligations.DecodeFaultsInOrder : Prop :=
  ∀ s : State,
    (s.params.pbufSize < s.bufLen → exec .decode s = .next (raised .lenReg 0x0004 s)) ∧
    (s.bufLen ≤ s.params.pbufSize → 125 ≤ s.bufLen → len12 (s.wire16 16) = s.bufLen - 16 →
      len12 (s.wire16 38) = s.bufLen - 38 → s.bufLen < 125 + (s.wire16 123).toNat →
      exec .decode s = .next (raised .bufRange s.bufLen s))

/-- 42_packet.md R214: the bounds after a successful DECODE of n bytes. -/
def Obligations.BoundsAfterSuccessfulDecode : Prop :=
  ∀ s t : State, s.status.fault = false → exec .decode s = .next t → t.status.fault = false → t.status.valid = true →
    len12 t.root.flen = s.bufLen - 16 ∧ len12 t.framing.flen = s.bufLen - 38 ∧ 125 ≤ s.bufLen ∧
    t.data.count.toNat ≤ s.bufLen - 125 ∧ s.bufLen - 125 ≤ s.params.pbufSize - 125 ∧
    s.params.pbufSize - 125 = s.params.pvCap ∧ s.bufLen ≤ 4111

/-- 42_packet.md R215: DECODE writes neither PBUF nor BUF_LEN, and a second DECODE gives the same result, the whole state
included. -/
def Obligations.SecondDecodeGivesTheSameResult : Prop :=
  ∀ s t : State, exec .decode s = .next t →
    t.pbuf = s.pbuf ∧ t.args.bufLen = s.args.bufLen ∧ exec .decode t = .next t

/-- 41_layers.md R176, 30_encoding.md R114: no other field is validated: two buffers of one length that agree on the two
12-bit lengths and the count are judged alike. -/
def Obligations.OnlyLengthsAndCountAreValidated : Prop :=
  ∀ s s' t t' : State, s'.params = s.params → s'.args.bufLen = s.args.bufLen →
    s'.status = s.status → s'.faultRec = s.faultRec → s'.pending = s.pending →
    len12 (s'.wire16 16) = len12 (s.wire16 16) → len12 (s'.wire16 38) = len12 (s.wire16 38) →
    s'.wire16 123 = s.wire16 123 → exec .decode s = .next t → exec .decode s' = .next t' →
    t'.status = t.status ∧ t'.faultRec = t.faultRec ∧ (t.status.fault = false → t'.malInfo = t.malInfo)

/-- 42_packet.md R216: BUILD, then ENCODE of that packet, then DECODE of that buffer gives back every field register and
PV[0..N+1), and is not malformed, whatever the host did to the rest in between. F_NAME is the fixed string of the input. -/
def Obligations.BuildEncodeDecodeRoundTrip : Prop :=
  ∀ s : State, s.params.InRange → BuildAccepts s →
    ∃ t, exec .build s = .next t ∧ ∀ t', SamePacket t t' →
      ∃ u, exec .encode t' = .next u ∧ ∀ u', SameBuffer u u' →
        ∃ w, exec .decode u' = .next w ∧
          w.status.malformed = false ∧ w.status.valid = true ∧ w.status.fault = u'.status.fault ∧
          w.root = t.root ∧ w.framing = t.framing ∧ w.data = t.data ∧
          (∀ i, i < s.slotCount + 1 → w.pvAt i = t.pvAt i) ∧
          ∀ k (h : k < 64), w.framing.name[k] = if k < s.nameInLen then s.nameInAt k else 0x00

/-- 42_packet.md R217: an encoded packet cut short by any k >= 1 bytes is malformed: at SIZE below 125 bytes, else at
ROOT. -/
def Obligations.TruncatedPacketIsMalformed : Prop :=
  ∀ (s : State) (k : Nat), s.params.InRange → BuildAccepts s → 1 ≤ k → k ≤ 126 + s.slotCount →
    ∃ t u w, exec .build s = .next t ∧ exec .encode t = .next u ∧
      exec .decode { u with args := { u.args with bufLen := BitVec.ofNat 16 (126 + s.slotCount - k) } } = .next w ∧
      w.status.malformed = true ∧ w.status.valid = false ∧
      w.malInfo.stage = if 126 + s.slotCount - k < 125 then .size else .root

/-! ### CMPSLOTS and PATCH -/

/-- 43_fast_path.md R230, R233: CMPSLOTS within its ranges completes, writes CMP_EQ alone, and CMP_EQ is 1 if and only if
every compared byte agrees. -/
def Obligations.CmpslotsComparesEverySlot : Prop :=
  ∀ s : State, SlotsAccept s →
    ∃ eq : Bool, exec .cmpslots s = .next { s with status := { s.status with cmpEq := eq, busy := false } } ∧
      (eq = true ↔ ∀ i, i < s.slotCount → s.pbufAt (126 + i) = s.vbufAt (s.srcOffset + i))

/-- 43_fast_path.md R230, 60_exceptions.md R260: the faults of CMPSLOTS in order. -/
def Obligations.CmpslotsFaultsInOrder : Prop :=
  ∀ s : State,
    (s.params.pbufSize < s.bufLen → exec .cmpslots s = .next (raised .lenReg 0x0004 s)) ∧
    (s.bufLen ≤ s.params.pbufSize → s.params.vbufSize < s.vbufLen →
      exec .cmpslots s = .next (raised .lenReg 0x0006 s)) ∧
    (s.bufLen ≤ s.params.pbufSize → s.vbufLen ≤ s.params.vbufSize → 0 < s.slotCount → s.bufLen < 126 + s.slotCount →
      exec .cmpslots s = .next (raised .bufRange (max 126 s.bufLen) s)) ∧
    (s.bufLen ≤ s.params.pbufSize → s.vbufLen ≤ s.params.vbufSize → 0 < s.slotCount → 126 + s.slotCount ≤ s.bufLen →
      s.vbufLen < s.srcOffset + s.slotCount →
      exec .cmpslots s = .next (raised .valuesRange (max s.srcOffset s.vbufLen) s))

/-- 43_fast_path.md R231: PATCH within its ranges completes: the sequence byte at 111 and the slots from 126 on are
written, and nothing else changes, every other byte of PBUF included. -/
def Obligations.PatchWritesSequenceAndSlots : Prop :=
  ∀ s : State, SlotsAccept s → 112 ≤ s.bufLen →
    ∃ t, exec .patch s = .next t ∧
      t = { s with pbuf := t.pbuf, status := { s.status with busy := false } } ∧
      t.pbufAt 111 = s.args.seq ∧
      (∀ i, i < s.slotCount → t.pbufAt (126 + i) = s.vbufAt (s.srcOffset + i)) ∧
      ∀ k, k ≠ 111 → (k < 126 ∨ 126 + s.slotCount ≤ k) → t.pbufAt k = s.pbufAt k

/-- 43_fast_path.md R231, 60_exceptions.md R260: the faults of PATCH in order. -/
def Obligations.PatchFaultsInOrder : Prop :=
  ∀ s : State,
    (s.params.pbufSize < s.bufLen → exec .patch s = .next (raised .lenReg 0x0004 s)) ∧
    (s.bufLen ≤ s.params.pbufSize → s.params.vbufSize < s.vbufLen → exec .patch s = .next (raised .lenReg 0x0006 s)) ∧
    (s.bufLen ≤ s.params.pbufSize → s.vbufLen ≤ s.params.vbufSize → s.bufLen < 112 →
      exec .patch s = .next (raised .bufRange 111 s)) ∧
    (s.bufLen ≤ s.params.pbufSize → s.vbufLen ≤ s.params.vbufSize → 112 ≤ s.bufLen → 0 < s.slotCount →
      s.bufLen < 126 + s.slotCount → exec .patch s = .next (raised .bufRange (max 126 s.bufLen) s)) ∧
    (s.bufLen ≤ s.params.pbufSize → s.vbufLen ≤ s.params.vbufSize → 0 < s.slotCount → 126 + s.slotCount ≤ s.bufLen →
      s.vbufLen < s.srcOffset + s.slotCount →
      exec .patch s = .next (raised .valuesRange (max s.srcOffset s.vbufLen) s))

/-- 43_fast_path.md R232: PATCH of a built and encoded packet with new slot values and a new sequence number gives the same
packet bytes as BUILD then ENCODE with them, all other inputs the same. -/
def Obligations.PatchEqualsFreshEncode : Prop :=
  ∀ (s : State) (vbuf : List Host.Cell) (vbufLen srcOffset : U16) (seq : Byte), s.params.InRange → BuildAccepts s →
    BuildAccepts (withNewSlots vbuf vbufLen srcOffset seq s) →
    ∃ t u p t' u', exec .build s = .next t ∧ exec .encode t = .next u ∧
      exec .patch (withNewSlots vbuf vbufLen srcOffset seq u) = .next p ∧
      exec .build (withNewSlots vbuf vbufLen srcOffset seq s) = .next t' ∧
      exec .encode t' = .next u' ∧
      p.status.fault = s.status.fault ∧ p.args.bufLen = u'.args.bufLen ∧ p.bufLen = 126 + s.slotCount ∧
      ∀ i, i < 126 + s.slotCount → p.pbufAt i = u'.pbufAt i

/-- 70_reset_and_hazards.md R297: an ENCODE after a PATCH undoes the patch: it writes the packet it would have written
without it. Where the PATCH faulted, no command runs in the block (R253): that case is the model's own, since `exec` does
not look at FAULT (assumption log 18). -/
def Obligations.EncodeAfterPatchUndoesIt : Prop :=
  ∀ s t u u' : State, EncodeAccepts s → exec .patch s = .next t → exec .encode t = .next u → exec .encode s = .next u' →
    u.args.bufLen = u'.args.bufLen ∧ ∀ k, k < packetLength s.framing → u.pbufAt k = u'.pbufAt k

/-! ### Faults, flags and frames over all commands -/

/-- 60_exceptions.md R257: a completion that raises a fault discards every write: the state is the state before, with
FAULT, the fault records and BUSY = 0. -/
def Obligations.FaultDiscardsEveryWrite : Prop :=
  ∀ s t : State, s.status.busy = true → (s.host.delay = 0 ∨ s.host.inputs = []) → s.status.fault = false →
    step s = .next t → t.status.fault = true →
    t = { s with
      status := { s.status with fault := true, busy := false }
      faultRec := { code := t.faultRec.code, info := t.faultRec.info, cmd := s.pending } } ∧
    t.faultRec.code ≠ .none

/-- 10_state.md R55, Table 10-5: which flags a completed command may change; BUSY falls with every command. -/
def Obligations.CommandsChangeOnlyTheirFlags : Prop :=
  ∀ (i : Instr) (s t : State), exec i s = .next t →
    t.status.busy = false ∧ t.status.overrun = s.status.overrun ∧
    (i ≠ .cmpslots → t.status.cmpEq = s.status.cmpEq) ∧
    (i ≠ .build → i ≠ .decode →
      t.status.valid = s.status.valid ∧ t.status.malformed = s.status.malformed ∧ t.malInfo = s.malInfo) ∧
    (s.status.fault = true → t.status.fault = true)

/-- 30_encoding.md R103, Table 30-2: what each command may write; the inputs VBUF and NAME_IN, PENDING and every argument
register but BUF_LEN are written by none. -/
def Obligations.CommandsWriteOnlyTheirTargets : Prop :=
  ∀ (i : Instr) (s t : State), exec i s = .next t →
    t.vbuf = s.vbuf ∧ t.nameIn = s.nameIn ∧ t.pending = s.pending ∧ t.params = s.params ∧ t.resets = s.resets ∧
    t.host = s.host ∧ (i ≠ .encode → t.args = s.args) ∧ { t.args with bufLen := s.args.bufLen } = s.args ∧
    (i ≠ .encode → i ≠ .patch → t.pbuf = s.pbuf) ∧
    (i ≠ .build → i ≠ .decode → t.root = s.root ∧ t.framing = s.framing ∧ t.data = s.data ∧ t.pv = s.pv)

/-- 60_exceptions.md R263, R253: from a faulted idle state no step but a reset changes FAULT or the fault records, and none
starts a command. -/
def Obligations.FaultIsStickyUntilReset : Prop :=
  ∀ s t : State, s.status.fault = true → s.status.busy = false → (∀ rest, s.host.inputs ≠ .reset :: rest) →
    step s = .next t →
    t.status.fault = true ∧ t.status.busy = false ∧ t.faultRec = s.faultRec

/-- 70_reset_and_hazards.md R290: a step that clears OVERRUN or FAULT is a reset. -/
def Obligations.OnlyResetClearsOverrunAndFault : Prop :=
  ∀ s t : State, step s = .next t →
    ((s.status.overrun = true ∧ t.status.overrun = false) ∨ (s.status.fault = true ∧ t.status.fault = false)) →
    ∃ rest, s.host.inputs = .reset :: rest

/-! ### Reset -/

/-- 10_state.md R57: right after reset every address of the control region and the field image reads 0x00, the parameter
registers apart, and PENDING is 0x00. -/
def Obligations.EveryRegisterIsZeroAfterReset : Prop :=
  State.reset.pending = 0x00 ∧
  (∀ a : Addr, a.toNat < 0x0200 → ¬ (0x0030 ≤ a.toNat ∧ a.toNat ≤ 0x0037) → portByte State.reset a = 0x00) ∧
  ∀ p : Params, (State.resetWith p).pending = 0x00 ∧
    ∀ a : Addr, a.toNat < 0x0200 → ¬ (0x0030 ≤ a.toNat ∧ a.toNat ≤ 0x0037) → portByte (State.resetWith p) a = 0x00

/-- 70_reset_and_hazards.md R290 to R292: the reset input puts every register to its reset value whatever the block is
doing, abandons an accepted command, and leaves every memory byte a free draw. The draw is the model's form of the
unspecified contents (assumption log 2 and 3). -/
def Obligations.ResetInputResetsEveryRegister : Prop :=
  ∀ (s : State) (rest : List HostOp), (s.status.busy = true → s.host.delay ≠ 0) → s.host.inputs = .reset :: rest →
    ∃ t, step s = .next t ∧
      t = { State.resetWith s.params with resets := s.resets + 1, host := t.host } ∧ t.host.inputs = rest ∧
      ∀ i, t.pbufAt i = Config.ramAtReset (s.resets + 1) .pbuf i ∧ t.vbufAt i = Config.ramAtReset (s.resets + 1) .vbuf i ∧
        t.nameInAt i = Config.ramAtReset (s.resets + 1) .nameIn i ∧ t.pvAt i = Config.ramAtReset (s.resets + 1) .pv i

/-! ### The invariant -/

/-- The invariant holds right after reset, for every instance whose parameters are in range. -/
def Obligations.InvariantHoldsAfterReset : Prop :=
  Inv State.reset ∧ ∀ p : Params, p.InRange → Inv (State.resetWith p)

/-- 10_state.md R56 and the rules `Inv` cites: every step, from every state the invariant allows, keeps it. -/
def Obligations.StepKeepsTheInvariant : Prop :=
  ∀ s t : State, Inv s → step s = .next t → Inv t

/-- 10_state.md R56: whenever VALID = 1 in a run, the packet fits its lengths and its memories. -/
def Obligations.ValidPacketFitsInEveryRun : Prop :=
  ∀ (k : Nat) (s t : State), Inv s → Sys2Proof.core.run k s = .next t → t.status.valid = true →
    125 + t.data.count.toNat ≤ 38 + len12 t.framing.flen ∧ 38 + len12 t.framing.flen ≤ t.params.pbufSize ∧
      t.data.count.toNat ≤ t.params.pvCap
end

