-- ==== Sys2Proof/Laws/Marshaller.lean ====
section
/-! SUPPORT. Laws of the marshaller and of the layer images: their sizes, and byte registers against byte lists. -/

namespace Sys2Proof.Machine

@[simp] theorem be16_length (v : U16) : (be16 v).length = 2 := rfl
@[simp] theorem be32_length (v : U32) : (be32 v).length = 4 := rfl
@[simp] theorem id128_length (c : Vector Byte 16) : (id128 c).length = 16 := by simp [id128]

/-- A byte of a byte register made from a list. -/
@[simp] theorem byteReg_getElem (n : Nat) (bs : List Byte) (k : Nat) (h : k < n) :
    (byteReg n bs)[k] = bs.getD k 0 := by simp [byteReg]

/-- A byte register made from its own bytes is itself. -/
theorem byteReg_toList (n : Nat) (v : Vector Byte n) : byteReg n v.toList = v := by
  ext k h
  simp [byteReg, List.getD_eq_getElem?_getD]

/-- Byte `i` of `B[k..k+m)` is `B[k+i]`. -/
theorem rdstr_getD (B : List Byte) (k m i : Nat) (h : i < m) : (rdstr B k m).getD i 0 = B.getD (k + i) 0 := by
  simp [rdstr, List.getD_eq_getElem?_getD, h]

@[simp] theorem rootImage_length (r : RootLayer) : (rootImage r).length = 38 := by simp [rootImage]

@[simp] theorem framingImage_length (f : FramingLayer) : (framingImage f).length = 77 := by simp [framingImage]

@[simp] theorem dataHeaderImage_length (d : DataLayer) : (dataHeaderImage d).length = 10 := by simp [dataHeaderImage]

@[simp] theorem dataImage_length (d : DataLayer) (vs : List Byte) : (dataImage d vs).length = 10 + vs.length := by
  simp [dataImage]

/-- A 12-bit length is below 4096 (41_layers.md R161). -/
theorem len12_lt (f : U16) : len12 f < 4096 := by
  have h := BitVec.toNat_and f 0x0FFF#16
  have : (f.toNat &&& 4095) ≤ 4095 := Nat.and_le_right
  simp only [len12, h]
  exact Nat.lt_of_le_of_lt this (by decide)

end Sys2Proof.Machine
end

