-- ==== Sys2Proof/Laws/Memory.lean ====
section
/-! SUPPORT. Laws of the byte memories: read after write, the canonical form is kept, byte ranges. -/

namespace Sys2Proof.Machine

theorem Memory.lookup_cells (a : Nat) (bs : List Byte) (i : Nat) :
    (Memory.cells a bs).lookup i = if a ≤ i ∧ i < a + bs.length then some (bs.getD (i - a) 0) else none := by
  induction bs generalizing a with
  | nil => simp [Memory.cells]
  | cons b bs ih =>
    rw [Memory.cells, List.lookup_cons, ih]
    by_cases h : i = a
    · subst h; simp
    · have hb : (i == a) = false := by simpa using h
      rw [hb]
      by_cases h2 : a + 1 ≤ i ∧ i < a + 1 + bs.length
      · have h3 : a ≤ i ∧ i < a + (b :: bs).length := by simp; omega
        have h4 : i - a = (i - (a + 1)) + 1 := by omega
        rw [if_pos h2, if_pos h3, h4, List.getD_cons_succ]
      · have h3 : ¬(a ≤ i ∧ i < a + (b :: bs).length) := by simp; omega
        rw [if_neg h2, if_neg h3]

theorem Memory.lookup_filter (p : Nat → Bool) (m : List Host.Cell) (i : Nat) :
    (m.filter fun c => p c.1).lookup i = if p i then m.lookup i else none := by
  induction m with
  | nil => simp
  | cons c m ih =>
    obtain ⟨k, v⟩ := c
    by_cases hk : i = k
    · subst hk
      by_cases hp : p i <;> simp [hp, ih]
    · have hb : (i == k) = false := by simpa using hk
      by_cases hp : p k <;> simp [hp, ih, List.lookup_cons, hb]

/-- A read after a write: the byte written inside the written range, the old byte outside it (20_memory.md R96). -/
theorem Memory.read_write (draw : Nat → Byte) (m : List Host.Cell) (a : Nat) (bs : List Byte) (i : Nat) :
    Memory.read draw (Memory.write m a bs) i =
      if a ≤ i ∧ i < a + bs.length then bs.getD (i - a) 0 else Memory.read draw m i := by
  have h1 := Memory.lookup_filter (fun k => decide (k < a)) m i
  have h2 := Memory.lookup_filter (fun k => decide (a + bs.length ≤ k)) m i
  simp only [decide_eq_true_eq] at h1 h2
  rw [Memory.read, Memory.write, List.lookup_append, List.lookup_append, Memory.lookup_cells, h1, h2]
  by_cases h : a ≤ i ∧ i < a + bs.length
  · have : ¬ i < a := by omega
    simp [h, this]
  · by_cases h3 : i < a
    · have : ¬ a + bs.length ≤ i := by omega
      simp [h, h3, this, Memory.read]
    · have : a + bs.length ≤ i := by omega
      simp [h, h3, this, Memory.read]

theorem Memory.mem_cells {a : Nat} {bs : List Byte} {c : Host.Cell} (h : c ∈ Memory.cells a bs) :
    a ≤ c.1 ∧ c.1 < a + bs.length := by
  induction bs generalizing a with
  | nil => cases h
  | cons b bs ih =>
    rcases List.mem_cons.1 h with rfl | h
    · simp
    · have := ih h
      simp; omega

theorem Memory.cells_sorted (a : Nat) (bs : List Byte) :
    (Memory.cells a bs).Pairwise (fun x y => x.1 < y.1) := by
  induction bs generalizing a with
  | nil => exact List.Pairwise.nil
  | cons b bs ih => exact List.Pairwise.cons (fun c hc => (Memory.mem_cells hc).1) (ih _)

/-- Every memory operation keeps the canonical form (assumption log 2): a write inside the capacity does. -/
theorem Memory.write_wf {cap : Nat} {m : List Host.Cell} (a : Nat) (bs : List Byte)
    (h : Memory.wf cap m) (ha : a + bs.length ≤ cap) : Memory.wf cap (Memory.write m a bs) := by
  obtain ⟨hs, hc⟩ := h
  constructor
  · rw [Memory.write, List.pairwise_append, List.pairwise_append]
    refine ⟨⟨hs.filter _, Memory.cells_sorted a bs, ?_⟩, hs.filter _, ?_⟩
    · intro x hx y hy
      have h1 := List.mem_filter.1 hx
      have h2 := Memory.mem_cells hy
      have h3 : x.1 < a := by simpa using h1.2
      omega
    · intro x hx y hy
      have h2 : a + bs.length ≤ y.1 := by simpa using (List.mem_filter.1 hy).2
      rcases List.mem_append.1 hx with hx | hx
      · have h3 : x.1 < a := by simpa using (List.mem_filter.1 hx).2
        omega
      · have := Memory.mem_cells hx
        omega
  · intro c hm
    rcases List.mem_append.1 hm with hm | hm
    · rcases List.mem_append.1 hm with hm | hm
      · exact hc c (List.mem_filter.1 hm).1
      · have := Memory.mem_cells hm
        omega
    · exact hc c (List.mem_filter.1 hm).1

/-- The empty memory, as after reset, is canonical. -/
theorem Memory.nil_wf (cap : Nat) : Memory.wf cap [] := ⟨List.Pairwise.nil, fun _ h => nomatch h⟩

@[simp] theorem Memory.readRange_length (draw : Nat → Byte) (m : List Host.Cell) (a n : Nat) :
    (Memory.readRange draw m a n).length = n := by simp [Memory.readRange]

/-- Byte `i` of `M[a..a+n)` is `M[a+i]`. -/
theorem Memory.readRange_getD (draw : Nat → Byte) (m : List Host.Cell) (a n i : Nat) (h : i < n) :
    (Memory.readRange draw m a n).getD i 0 = Memory.read draw m (a + i) := by
  simp [Memory.readRange, List.getD_eq_getElem?_getD, h]

/-- Writing the same bytes at the same place again changes nothing. -/
theorem Memory.write_write (m : List Host.Cell) (a : Nat) (bs : List Byte) :
    Memory.write (Memory.write m a bs) a bs = Memory.write m a bs := by
  have lo : (Memory.cells a bs).filter (fun c => decide (c.1 < a)) = [] := by
    rw [List.filter_eq_nil_iff]
    intro c hc
    have := Memory.mem_cells hc
    simp; omega
  have hi : (Memory.cells a bs).filter (fun c => decide (a + bs.length ≤ c.1)) = [] := by
    rw [List.filter_eq_nil_iff]
    intro c hc
    have := Memory.mem_cells hc
    simp; omega
  have lohi : (m.filter fun c => decide (a + bs.length ≤ c.1)).filter (fun c => decide (c.1 < a)) = [] := by
    rw [List.filter_eq_nil_iff]
    intro c hc
    have : a + bs.length ≤ c.1 := by simpa using (List.mem_filter.1 hc).2
    simp; omega
  have hilo : (m.filter fun c => decide (c.1 < a)).filter (fun c => decide (a + bs.length ≤ c.1)) = [] := by
    rw [List.filter_eq_nil_iff]
    intro c hc
    have : c.1 < a := by simpa using (List.mem_filter.1 hc).2
    simp; omega
  unfold Memory.write
  rw [List.filter_append, List.filter_append, List.filter_append, List.filter_append, lo, hi, lohi, hilo,
    List.filter_filter, List.filter_filter]
  simp

end Sys2Proof.Machine
end

