-- ==== Sys2Proof/Laws/State.lean ====
section
/-! SUPPORT. One lemma per field per named update of State, each true by rfl, so that no proof unfolds a record update. -/

namespace Sys2Proof.Machine

/-! ### finish -/

@[simp] theorem finish_args (s : State) : (finish s).args = s.args := rfl
@[simp] theorem finish_pending (s : State) : (finish s).pending = s.pending := rfl
@[simp] theorem finish_status (s : State) : (finish s).status = { s.status with busy := false } := rfl
@[simp] theorem finish_malInfo (s : State) : (finish s).malInfo = s.malInfo := rfl
@[simp] theorem finish_faultRec (s : State) : (finish s).faultRec = s.faultRec := rfl
@[simp] theorem finish_root (s : State) : (finish s).root = s.root := rfl
@[simp] theorem finish_framing (s : State) : (finish s).framing = s.framing := rfl
@[simp] theorem finish_data (s : State) : (finish s).data = s.data := rfl
@[simp] theorem finish_pbuf (s : State) : (finish s).pbuf = s.pbuf := rfl
@[simp] theorem finish_vbuf (s : State) : (finish s).vbuf = s.vbuf := rfl
@[simp] theorem finish_nameIn (s : State) : (finish s).nameIn = s.nameIn := rfl
@[simp] theorem finish_pv (s : State) : (finish s).pv = s.pv := rfl
@[simp] theorem finish_params (s : State) : (finish s).params = s.params := rfl
@[simp] theorem finish_resets (s : State) : (finish s).resets = s.resets := rfl
@[simp] theorem finish_host (s : State) : (finish s).host = s.host := rfl

/-! ### takeFault -/

@[simp] theorem takeFault_args (c : FaultCode) (i : Nat) (s : State) : (takeFault c i s).args = s.args := rfl
@[simp] theorem takeFault_pending (c : FaultCode) (i : Nat) (s : State) : (takeFault c i s).pending = s.pending := rfl
@[simp] theorem takeFault_status (c : FaultCode) (i : Nat) (s : State) : (takeFault c i s).status = { s.status with fault := true, busy := false } := rfl
@[simp] theorem takeFault_malInfo (c : FaultCode) (i : Nat) (s : State) : (takeFault c i s).malInfo = s.malInfo := rfl
@[simp] theorem takeFault_faultRec (c : FaultCode) (i : Nat) (s : State) : (takeFault c i s).faultRec = { code := c, info := BitVec.ofNat 32 i, cmd := s.pending } := rfl
@[simp] theorem takeFault_root (c : FaultCode) (i : Nat) (s : State) : (takeFault c i s).root = s.root := rfl
@[simp] theorem takeFault_framing (c : FaultCode) (i : Nat) (s : State) : (takeFault c i s).framing = s.framing := rfl
@[simp] theorem takeFault_data (c : FaultCode) (i : Nat) (s : State) : (takeFault c i s).data = s.data := rfl
@[simp] theorem takeFault_pbuf (c : FaultCode) (i : Nat) (s : State) : (takeFault c i s).pbuf = s.pbuf := rfl
@[simp] theorem takeFault_vbuf (c : FaultCode) (i : Nat) (s : State) : (takeFault c i s).vbuf = s.vbuf := rfl
@[simp] theorem takeFault_nameIn (c : FaultCode) (i : Nat) (s : State) : (takeFault c i s).nameIn = s.nameIn := rfl
@[simp] theorem takeFault_pv (c : FaultCode) (i : Nat) (s : State) : (takeFault c i s).pv = s.pv := rfl
@[simp] theorem takeFault_params (c : FaultCode) (i : Nat) (s : State) : (takeFault c i s).params = s.params := rfl
@[simp] theorem takeFault_resets (c : FaultCode) (i : Nat) (s : State) : (takeFault c i s).resets = s.resets := rfl
@[simp] theorem takeFault_host (c : FaultCode) (i : Nat) (s : State) : (takeFault c i s).host = s.host := rfl

/-! ### setWellFormed -/

@[simp] theorem setWellFormed_args (s : State) : (setWellFormed s).args = s.args := rfl
@[simp] theorem setWellFormed_pending (s : State) : (setWellFormed s).pending = s.pending := rfl
@[simp] theorem setWellFormed_status (s : State) : (setWellFormed s).status = { s.status with valid := true, malformed := false } := rfl
@[simp] theorem setWellFormed_malInfo (s : State) : (setWellFormed s).malInfo = MalInfo.zero := rfl
@[simp] theorem setWellFormed_faultRec (s : State) : (setWellFormed s).faultRec = s.faultRec := rfl
@[simp] theorem setWellFormed_root (s : State) : (setWellFormed s).root = s.root := rfl
@[simp] theorem setWellFormed_framing (s : State) : (setWellFormed s).framing = s.framing := rfl
@[simp] theorem setWellFormed_data (s : State) : (setWellFormed s).data = s.data := rfl
@[simp] theorem setWellFormed_pbuf (s : State) : (setWellFormed s).pbuf = s.pbuf := rfl
@[simp] theorem setWellFormed_vbuf (s : State) : (setWellFormed s).vbuf = s.vbuf := rfl
@[simp] theorem setWellFormed_nameIn (s : State) : (setWellFormed s).nameIn = s.nameIn := rfl
@[simp] theorem setWellFormed_pv (s : State) : (setWellFormed s).pv = s.pv := rfl
@[simp] theorem setWellFormed_params (s : State) : (setWellFormed s).params = s.params := rfl
@[simp] theorem setWellFormed_resets (s : State) : (setWellFormed s).resets = s.resets := rfl
@[simp] theorem setWellFormed_host (s : State) : (setWellFormed s).host = s.host := rfl

/-! ### setMalformed -/

@[simp] theorem setMalformed_args (m : MalInfo) (s : State) : (setMalformed m s).args = s.args := rfl
@[simp] theorem setMalformed_pending (m : MalInfo) (s : State) : (setMalformed m s).pending = s.pending := rfl
@[simp] theorem setMalformed_status (m : MalInfo) (s : State) : (setMalformed m s).status = { s.status with valid := false, malformed := true } := rfl
@[simp] theorem setMalformed_malInfo (m : MalInfo) (s : State) : (setMalformed m s).malInfo = m := rfl
@[simp] theorem setMalformed_faultRec (m : MalInfo) (s : State) : (setMalformed m s).faultRec = s.faultRec := rfl
@[simp] theorem setMalformed_root (m : MalInfo) (s : State) : (setMalformed m s).root = s.root := rfl
@[simp] theorem setMalformed_framing (m : MalInfo) (s : State) : (setMalformed m s).framing = s.framing := rfl
@[simp] theorem setMalformed_data (m : MalInfo) (s : State) : (setMalformed m s).data = s.data := rfl
@[simp] theorem setMalformed_pbuf (m : MalInfo) (s : State) : (setMalformed m s).pbuf = s.pbuf := rfl
@[simp] theorem setMalformed_vbuf (m : MalInfo) (s : State) : (setMalformed m s).vbuf = s.vbuf := rfl
@[simp] theorem setMalformed_nameIn (m : MalInfo) (s : State) : (setMalformed m s).nameIn = s.nameIn := rfl
@[simp] theorem setMalformed_pv (m : MalInfo) (s : State) : (setMalformed m s).pv = s.pv := rfl
@[simp] theorem setMalformed_params (m : MalInfo) (s : State) : (setMalformed m s).params = s.params := rfl
@[simp] theorem setMalformed_resets (m : MalInfo) (s : State) : (setMalformed m s).resets = s.resets := rfl
@[simp] theorem setMalformed_host (m : MalInfo) (s : State) : (setMalformed m s).host = s.host := rfl

/-! ### setCmpEq -/

@[simp] theorem setCmpEq_args (b : Bool) (s : State) : (setCmpEq b s).args = s.args := rfl
@[simp] theorem setCmpEq_pending (b : Bool) (s : State) : (setCmpEq b s).pending = s.pending := rfl
@[simp] theorem setCmpEq_status (b : Bool) (s : State) : (setCmpEq b s).status = { s.status with cmpEq := b } := rfl
@[simp] theorem setCmpEq_malInfo (b : Bool) (s : State) : (setCmpEq b s).malInfo = s.malInfo := rfl
@[simp] theorem setCmpEq_faultRec (b : Bool) (s : State) : (setCmpEq b s).faultRec = s.faultRec := rfl
@[simp] theorem setCmpEq_root (b : Bool) (s : State) : (setCmpEq b s).root = s.root := rfl
@[simp] theorem setCmpEq_framing (b : Bool) (s : State) : (setCmpEq b s).framing = s.framing := rfl
@[simp] theorem setCmpEq_data (b : Bool) (s : State) : (setCmpEq b s).data = s.data := rfl
@[simp] theorem setCmpEq_pbuf (b : Bool) (s : State) : (setCmpEq b s).pbuf = s.pbuf := rfl
@[simp] theorem setCmpEq_vbuf (b : Bool) (s : State) : (setCmpEq b s).vbuf = s.vbuf := rfl
@[simp] theorem setCmpEq_nameIn (b : Bool) (s : State) : (setCmpEq b s).nameIn = s.nameIn := rfl
@[simp] theorem setCmpEq_pv (b : Bool) (s : State) : (setCmpEq b s).pv = s.pv := rfl
@[simp] theorem setCmpEq_params (b : Bool) (s : State) : (setCmpEq b s).params = s.params := rfl
@[simp] theorem setCmpEq_resets (b : Bool) (s : State) : (setCmpEq b s).resets = s.resets := rfl
@[simp] theorem setCmpEq_host (b : Bool) (s : State) : (setCmpEq b s).host = s.host := rfl

/-! ### setOverrun -/

@[simp] theorem setOverrun_args (s : State) : (setOverrun s).args = s.args := rfl
@[simp] theorem setOverrun_pending (s : State) : (setOverrun s).pending = s.pending := rfl
@[simp] theorem setOverrun_status (s : State) : (setOverrun s).status = { s.status with overrun := true } := rfl
@[simp] theorem setOverrun_malInfo (s : State) : (setOverrun s).malInfo = s.malInfo := rfl
@[simp] theorem setOverrun_faultRec (s : State) : (setOverrun s).faultRec = s.faultRec := rfl
@[simp] theorem setOverrun_root (s : State) : (setOverrun s).root = s.root := rfl
@[simp] theorem setOverrun_framing (s : State) : (setOverrun s).framing = s.framing := rfl
@[simp] theorem setOverrun_data (s : State) : (setOverrun s).data = s.data := rfl
@[simp] theorem setOverrun_pbuf (s : State) : (setOverrun s).pbuf = s.pbuf := rfl
@[simp] theorem setOverrun_vbuf (s : State) : (setOverrun s).vbuf = s.vbuf := rfl
@[simp] theorem setOverrun_nameIn (s : State) : (setOverrun s).nameIn = s.nameIn := rfl
@[simp] theorem setOverrun_pv (s : State) : (setOverrun s).pv = s.pv := rfl
@[simp] theorem setOverrun_params (s : State) : (setOverrun s).params = s.params := rfl
@[simp] theorem setOverrun_resets (s : State) : (setOverrun s).resets = s.resets := rfl
@[simp] theorem setOverrun_host (s : State) : (setOverrun s).host = s.host := rfl

/-! ### writePbuf -/

@[simp] theorem writePbuf_args (a : Nat) (bs : List Byte) (s : State) : (writePbuf a bs s).args = s.args := rfl
@[simp] theorem writePbuf_pending (a : Nat) (bs : List Byte) (s : State) : (writePbuf a bs s).pending = s.pending := rfl
@[simp] theorem writePbuf_status (a : Nat) (bs : List Byte) (s : State) : (writePbuf a bs s).status = s.status := rfl
@[simp] theorem writePbuf_malInfo (a : Nat) (bs : List Byte) (s : State) : (writePbuf a bs s).malInfo = s.malInfo := rfl
@[simp] theorem writePbuf_faultRec (a : Nat) (bs : List Byte) (s : State) : (writePbuf a bs s).faultRec = s.faultRec := rfl
@[simp] theorem writePbuf_root (a : Nat) (bs : List Byte) (s : State) : (writePbuf a bs s).root = s.root := rfl
@[simp] theorem writePbuf_framing (a : Nat) (bs : List Byte) (s : State) : (writePbuf a bs s).framing = s.framing := rfl
@[simp] theorem writePbuf_data (a : Nat) (bs : List Byte) (s : State) : (writePbuf a bs s).data = s.data := rfl
@[simp] theorem writePbuf_pbuf (a : Nat) (bs : List Byte) (s : State) : (writePbuf a bs s).pbuf = Memory.write s.pbuf a bs := rfl
@[simp] theorem writePbuf_vbuf (a : Nat) (bs : List Byte) (s : State) : (writePbuf a bs s).vbuf = s.vbuf := rfl
@[simp] theorem writePbuf_nameIn (a : Nat) (bs : List Byte) (s : State) : (writePbuf a bs s).nameIn = s.nameIn := rfl
@[simp] theorem writePbuf_pv (a : Nat) (bs : List Byte) (s : State) : (writePbuf a bs s).pv = s.pv := rfl
@[simp] theorem writePbuf_params (a : Nat) (bs : List Byte) (s : State) : (writePbuf a bs s).params = s.params := rfl
@[simp] theorem writePbuf_resets (a : Nat) (bs : List Byte) (s : State) : (writePbuf a bs s).resets = s.resets := rfl
@[simp] theorem writePbuf_host (a : Nat) (bs : List Byte) (s : State) : (writePbuf a bs s).host = s.host := rfl

/-! ### writeVbuf -/

@[simp] theorem writeVbuf_args (a : Nat) (bs : List Byte) (s : State) : (writeVbuf a bs s).args = s.args := rfl
@[simp] theorem writeVbuf_pending (a : Nat) (bs : List Byte) (s : State) : (writeVbuf a bs s).pending = s.pending := rfl
@[simp] theorem writeVbuf_status (a : Nat) (bs : List Byte) (s : State) : (writeVbuf a bs s).status = s.status := rfl
@[simp] theorem writeVbuf_malInfo (a : Nat) (bs : List Byte) (s : State) : (writeVbuf a bs s).malInfo = s.malInfo := rfl
@[simp] theorem writeVbuf_faultRec (a : Nat) (bs : List Byte) (s : State) : (writeVbuf a bs s).faultRec = s.faultRec := rfl
@[simp] theorem writeVbuf_root (a : Nat) (bs : List Byte) (s : State) : (writeVbuf a bs s).root = s.root := rfl
@[simp] theorem writeVbuf_framing (a : Nat) (bs : List Byte) (s : State) : (writeVbuf a bs s).framing = s.framing := rfl
@[simp] theorem writeVbuf_data (a : Nat) (bs : List Byte) (s : State) : (writeVbuf a bs s).data = s.data := rfl
@[simp] theorem writeVbuf_pbuf (a : Nat) (bs : List Byte) (s : State) : (writeVbuf a bs s).pbuf = s.pbuf := rfl
@[simp] theorem writeVbuf_vbuf (a : Nat) (bs : List Byte) (s : State) : (writeVbuf a bs s).vbuf = Memory.write s.vbuf a bs := rfl
@[simp] theorem writeVbuf_nameIn (a : Nat) (bs : List Byte) (s : State) : (writeVbuf a bs s).nameIn = s.nameIn := rfl
@[simp] theorem writeVbuf_pv (a : Nat) (bs : List Byte) (s : State) : (writeVbuf a bs s).pv = s.pv := rfl
@[simp] theorem writeVbuf_params (a : Nat) (bs : List Byte) (s : State) : (writeVbuf a bs s).params = s.params := rfl
@[simp] theorem writeVbuf_resets (a : Nat) (bs : List Byte) (s : State) : (writeVbuf a bs s).resets = s.resets := rfl
@[simp] theorem writeVbuf_host (a : Nat) (bs : List Byte) (s : State) : (writeVbuf a bs s).host = s.host := rfl

/-! ### writeNameIn -/

@[simp] theorem writeNameIn_args (a : Nat) (bs : List Byte) (s : State) : (writeNameIn a bs s).args = s.args := rfl
@[simp] theorem writeNameIn_pending (a : Nat) (bs : List Byte) (s : State) : (writeNameIn a bs s).pending = s.pending := rfl
@[simp] theorem writeNameIn_status (a : Nat) (bs : List Byte) (s : State) : (writeNameIn a bs s).status = s.status := rfl
@[simp] theorem writeNameIn_malInfo (a : Nat) (bs : List Byte) (s : State) : (writeNameIn a bs s).malInfo = s.malInfo := rfl
@[simp] theorem writeNameIn_faultRec (a : Nat) (bs : List Byte) (s : State) : (writeNameIn a bs s).faultRec = s.faultRec := rfl
@[simp] theorem writeNameIn_root (a : Nat) (bs : List Byte) (s : State) : (writeNameIn a bs s).root = s.root := rfl
@[simp] theorem writeNameIn_framing (a : Nat) (bs : List Byte) (s : State) : (writeNameIn a bs s).framing = s.framing := rfl
@[simp] theorem writeNameIn_data (a : Nat) (bs : List Byte) (s : State) : (writeNameIn a bs s).data = s.data := rfl
@[simp] theorem writeNameIn_pbuf (a : Nat) (bs : List Byte) (s : State) : (writeNameIn a bs s).pbuf = s.pbuf := rfl
@[simp] theorem writeNameIn_vbuf (a : Nat) (bs : List Byte) (s : State) : (writeNameIn a bs s).vbuf = s.vbuf := rfl
@[simp] theorem writeNameIn_nameIn (a : Nat) (bs : List Byte) (s : State) : (writeNameIn a bs s).nameIn = Memory.write s.nameIn a bs := rfl
@[simp] theorem writeNameIn_pv (a : Nat) (bs : List Byte) (s : State) : (writeNameIn a bs s).pv = s.pv := rfl
@[simp] theorem writeNameIn_params (a : Nat) (bs : List Byte) (s : State) : (writeNameIn a bs s).params = s.params := rfl
@[simp] theorem writeNameIn_resets (a : Nat) (bs : List Byte) (s : State) : (writeNameIn a bs s).resets = s.resets := rfl
@[simp] theorem writeNameIn_host (a : Nat) (bs : List Byte) (s : State) : (writeNameIn a bs s).host = s.host := rfl

/-! ### writePv -/

@[simp] theorem writePv_args (a : Nat) (bs : List Byte) (s : State) : (writePv a bs s).args = s.args := rfl
@[simp] theorem writePv_pending (a : Nat) (bs : List Byte) (s : State) : (writePv a bs s).pending = s.pending := rfl
@[simp] theorem writePv_status (a : Nat) (bs : List Byte) (s : State) : (writePv a bs s).status = s.status := rfl
@[simp] theorem writePv_malInfo (a : Nat) (bs : List Byte) (s : State) : (writePv a bs s).malInfo = s.malInfo := rfl
@[simp] theorem writePv_faultRec (a : Nat) (bs : List Byte) (s : State) : (writePv a bs s).faultRec = s.faultRec := rfl
@[simp] theorem writePv_root (a : Nat) (bs : List Byte) (s : State) : (writePv a bs s).root = s.root := rfl
@[simp] theorem writePv_framing (a : Nat) (bs : List Byte) (s : State) : (writePv a bs s).framing = s.framing := rfl
@[simp] theorem writePv_data (a : Nat) (bs : List Byte) (s : State) : (writePv a bs s).data = s.data := rfl
@[simp] theorem writePv_pbuf (a : Nat) (bs : List Byte) (s : State) : (writePv a bs s).pbuf = s.pbuf := rfl
@[simp] theorem writePv_vbuf (a : Nat) (bs : List Byte) (s : State) : (writePv a bs s).vbuf = s.vbuf := rfl
@[simp] theorem writePv_nameIn (a : Nat) (bs : List Byte) (s : State) : (writePv a bs s).nameIn = s.nameIn := rfl
@[simp] theorem writePv_pv (a : Nat) (bs : List Byte) (s : State) : (writePv a bs s).pv = Memory.write s.pv a bs := rfl
@[simp] theorem writePv_params (a : Nat) (bs : List Byte) (s : State) : (writePv a bs s).params = s.params := rfl
@[simp] theorem writePv_resets (a : Nat) (bs : List Byte) (s : State) : (writePv a bs s).resets = s.resets := rfl
@[simp] theorem writePv_host (a : Nat) (bs : List Byte) (s : State) : (writePv a bs s).host = s.host := rfl

/-! ### accept -/

@[simp] theorem accept_args (b : Byte) (s : State) : (accept b s).args = s.args := rfl
@[simp] theorem accept_pending (b : Byte) (s : State) : (accept b s).pending = b := rfl
@[simp] theorem accept_status (b : Byte) (s : State) : (accept b s).status = { s.status with busy := true } := rfl
@[simp] theorem accept_malInfo (b : Byte) (s : State) : (accept b s).malInfo = s.malInfo := rfl
@[simp] theorem accept_faultRec (b : Byte) (s : State) : (accept b s).faultRec = s.faultRec := rfl
@[simp] theorem accept_root (b : Byte) (s : State) : (accept b s).root = s.root := rfl
@[simp] theorem accept_framing (b : Byte) (s : State) : (accept b s).framing = s.framing := rfl
@[simp] theorem accept_data (b : Byte) (s : State) : (accept b s).data = s.data := rfl
@[simp] theorem accept_pbuf (b : Byte) (s : State) : (accept b s).pbuf = s.pbuf := rfl
@[simp] theorem accept_vbuf (b : Byte) (s : State) : (accept b s).vbuf = s.vbuf := rfl
@[simp] theorem accept_nameIn (b : Byte) (s : State) : (accept b s).nameIn = s.nameIn := rfl
@[simp] theorem accept_pv (b : Byte) (s : State) : (accept b s).pv = s.pv := rfl
@[simp] theorem accept_params (b : Byte) (s : State) : (accept b s).params = s.params := rfl
@[simp] theorem accept_resets (b : Byte) (s : State) : (accept b s).resets = s.resets := rfl
@[simp] theorem accept_host (b : Byte) (s : State) : (accept b s).host = nextDelay s.host := rfl

/-! ### acceptNow -/

@[simp] theorem acceptNow_args (b : Byte) (s : State) : (acceptNow b s).args = s.args := rfl
@[simp] theorem acceptNow_pending (b : Byte) (s : State) : (acceptNow b s).pending = b := rfl
@[simp] theorem acceptNow_status (b : Byte) (s : State) : (acceptNow b s).status = { s.status with busy := true } := rfl
@[simp] theorem acceptNow_malInfo (b : Byte) (s : State) : (acceptNow b s).malInfo = s.malInfo := rfl
@[simp] theorem acceptNow_faultRec (b : Byte) (s : State) : (acceptNow b s).faultRec = s.faultRec := rfl
@[simp] theorem acceptNow_root (b : Byte) (s : State) : (acceptNow b s).root = s.root := rfl
@[simp] theorem acceptNow_framing (b : Byte) (s : State) : (acceptNow b s).framing = s.framing := rfl
@[simp] theorem acceptNow_data (b : Byte) (s : State) : (acceptNow b s).data = s.data := rfl
@[simp] theorem acceptNow_pbuf (b : Byte) (s : State) : (acceptNow b s).pbuf = s.pbuf := rfl
@[simp] theorem acceptNow_vbuf (b : Byte) (s : State) : (acceptNow b s).vbuf = s.vbuf := rfl
@[simp] theorem acceptNow_nameIn (b : Byte) (s : State) : (acceptNow b s).nameIn = s.nameIn := rfl
@[simp] theorem acceptNow_pv (b : Byte) (s : State) : (acceptNow b s).pv = s.pv := rfl
@[simp] theorem acceptNow_params (b : Byte) (s : State) : (acceptNow b s).params = s.params := rfl
@[simp] theorem acceptNow_resets (b : Byte) (s : State) : (acceptNow b s).resets = s.resets := rfl
@[simp] theorem acceptNow_host (b : Byte) (s : State) : (acceptNow b s).host = { s.host with delay := 0 } := rfl

/-! ### popInput -/

@[simp] theorem popInput_args (rest : List HostOp) (s : State) : (popInput rest s).args = s.args := rfl
@[simp] theorem popInput_pending (rest : List HostOp) (s : State) : (popInput rest s).pending = s.pending := rfl
@[simp] theorem popInput_status (rest : List HostOp) (s : State) : (popInput rest s).status = s.status := rfl
@[simp] theorem popInput_malInfo (rest : List HostOp) (s : State) : (popInput rest s).malInfo = s.malInfo := rfl
@[simp] theorem popInput_faultRec (rest : List HostOp) (s : State) : (popInput rest s).faultRec = s.faultRec := rfl
@[simp] theorem popInput_root (rest : List HostOp) (s : State) : (popInput rest s).root = s.root := rfl
@[simp] theorem popInput_framing (rest : List HostOp) (s : State) : (popInput rest s).framing = s.framing := rfl
@[simp] theorem popInput_data (rest : List HostOp) (s : State) : (popInput rest s).data = s.data := rfl
@[simp] theorem popInput_pbuf (rest : List HostOp) (s : State) : (popInput rest s).pbuf = s.pbuf := rfl
@[simp] theorem popInput_vbuf (rest : List HostOp) (s : State) : (popInput rest s).vbuf = s.vbuf := rfl
@[simp] theorem popInput_nameIn (rest : List HostOp) (s : State) : (popInput rest s).nameIn = s.nameIn := rfl
@[simp] theorem popInput_pv (rest : List HostOp) (s : State) : (popInput rest s).pv = s.pv := rfl
@[simp] theorem popInput_params (rest : List HostOp) (s : State) : (popInput rest s).params = s.params := rfl
@[simp] theorem popInput_resets (rest : List HostOp) (s : State) : (popInput rest s).resets = s.resets := rfl
@[simp] theorem popInput_host (rest : List HostOp) (s : State) : (popInput rest s).host = { s.host with inputs := rest, delay := s.host.delay - 1 } := rfl

/-! ### hostRead and the reset input -/

@[simp] theorem hostRead_args (a : Addr) (s : State) : (hostRead a s).args = s.args := rfl
@[simp] theorem hostRead_pending (a : Addr) (s : State) : (hostRead a s).pending = s.pending := rfl
@[simp] theorem hostRead_status (a : Addr) (s : State) : (hostRead a s).status = s.status := rfl
@[simp] theorem hostRead_malInfo (a : Addr) (s : State) : (hostRead a s).malInfo = s.malInfo := rfl
@[simp] theorem hostRead_faultRec (a : Addr) (s : State) : (hostRead a s).faultRec = s.faultRec := rfl
@[simp] theorem hostRead_root (a : Addr) (s : State) : (hostRead a s).root = s.root := rfl
@[simp] theorem hostRead_framing (a : Addr) (s : State) : (hostRead a s).framing = s.framing := rfl
@[simp] theorem hostRead_data (a : Addr) (s : State) : (hostRead a s).data = s.data := rfl
@[simp] theorem hostRead_pbuf (a : Addr) (s : State) : (hostRead a s).pbuf = s.pbuf := rfl
@[simp] theorem hostRead_vbuf (a : Addr) (s : State) : (hostRead a s).vbuf = s.vbuf := rfl
@[simp] theorem hostRead_nameIn (a : Addr) (s : State) : (hostRead a s).nameIn = s.nameIn := rfl
@[simp] theorem hostRead_pv (a : Addr) (s : State) : (hostRead a s).pv = s.pv := rfl
@[simp] theorem hostRead_params (a : Addr) (s : State) : (hostRead a s).params = s.params := rfl
@[simp] theorem hostRead_resets (a : Addr) (s : State) : (hostRead a s).resets = s.resets := rfl
@[simp] theorem applyReset_args (s : State) : (applyReset s).args = Args.zero := rfl
@[simp] theorem applyReset_pending (s : State) : (applyReset s).pending = 0 := rfl
@[simp] theorem applyReset_status (s : State) : (applyReset s).status = Status.zero := rfl
@[simp] theorem applyReset_malInfo (s : State) : (applyReset s).malInfo = MalInfo.zero := rfl
@[simp] theorem applyReset_faultRec (s : State) : (applyReset s).faultRec = FaultRec.zero := rfl
@[simp] theorem applyReset_root (s : State) : (applyReset s).root = RootLayer.zero := rfl
@[simp] theorem applyReset_framing (s : State) : (applyReset s).framing = FramingLayer.zero := rfl
@[simp] theorem applyReset_data (s : State) : (applyReset s).data = DataLayer.zero := rfl
@[simp] theorem applyReset_pbuf (s : State) : (applyReset s).pbuf = [] := rfl
@[simp] theorem applyReset_vbuf (s : State) : (applyReset s).vbuf = [] := rfl
@[simp] theorem applyReset_nameIn (s : State) : (applyReset s).nameIn = [] := rfl
@[simp] theorem applyReset_pv (s : State) : (applyReset s).pv = [] := rfl
@[simp] theorem applyReset_params (s : State) : (applyReset s).params = s.params := rfl
@[simp] theorem applyReset_resets (s : State) : (applyReset s).resets = s.resets + 1 := rfl
@[simp] theorem applyReset_host (s : State) : (applyReset s).host = s.host := rfl

/-! ### The byte reads see only their memory and the reset count -/

@[simp] theorem finish_pbufAt (s : State) : (finish s).pbufAt = s.pbufAt := rfl
@[simp] theorem finish_pvAt (s : State) : (finish s).pvAt = s.pvAt := rfl
@[simp] theorem setWellFormed_pbufAt (s : State) : (setWellFormed s).pbufAt = s.pbufAt := rfl
@[simp] theorem setWellFormed_pvAt (s : State) : (setWellFormed s).pvAt = s.pvAt := rfl
@[simp] theorem setMalformed_pbufAt (m : MalInfo) (s : State) : (setMalformed m s).pbufAt = s.pbufAt := rfl
@[simp] theorem setMalformed_pvAt (m : MalInfo) (s : State) : (setMalformed m s).pvAt = s.pvAt := rfl

end Sys2Proof.Machine
end

