-- ==== Sys2Proof/Laws/Ops.lean ====
section
/-! SUPPORT. Once for each shared operation, everything it can do. -/

namespace Sys2Proof.Machine

/-- `guarded` has two outcomes, both next states: every check holds and `done` is finished, or the first failing check's
fault is taken on the state before the command (60_exceptions.md R257, R260). -/
theorem guarded_cases (cs : List Check) (s done : State) :
    ((∀ c ∈ cs, c.ok = true) ∧ guarded cs s done = .next (finish done)) ∨
    (∃ c, firstFailed cs = some c ∧ c ∈ cs ∧ c.ok = false ∧ guarded cs s done = .next (takeFault c.code c.info s)) := by
  unfold guarded
  cases h : firstFailed cs with
  | none =>
    refine .inl ⟨fun c hc => ?_, rfl⟩
    have := List.find?_eq_none.1 h c hc
    simpa using this
  | some c =>
    refine .inr ⟨c, rfl, List.mem_of_find?_eq_some h, ?_, rfl⟩
    have := List.find?_some h
    simpa using this

/-- If every check holds, the command ends in its writes. -/
theorem guarded_of_ok {cs : List Check} {s done : State} (h : ∀ c ∈ cs, c.ok = true) :
    guarded cs s done = .next (finish done) := by
  have : firstFailed cs = none := List.find?_eq_none.2 fun c hc => by simp [h c hc]
  simp [guarded, this]

/-- If the first failing check is `c`, its fault is taken. -/
theorem guarded_of_failed {cs : List Check} {s done : State} {c : Check} (h : firstFailed cs = some c) :
    guarded cs s done = .next (takeFault c.code c.info s) := by
  simp [guarded, h]

@[simp] theorem firstFailed_nil : firstFailed [] = none := rfl

theorem firstFailed_cons (c : Check) (cs : List Check) :
    firstFailed (c :: cs) = if c.ok = true then firstFailed cs else some c := by
  cases h : c.ok <;> simp [firstFailed, h]

/-- A check that holds is passed. -/
theorem firstFailed_of_ok {c : Check} {cs : List Check} (h : c.ok = true) : firstFailed (c :: cs) = firstFailed cs := by
  simp [firstFailed, h]

/-- A check that fails first is the one reported (60_exceptions.md R260). -/
theorem firstFailed_of_failed {c : Check} {cs : List Check} (h : c.ok = false) : firstFailed (c :: cs) = some c := by
  simp [firstFailed, h]

@[simp] theorem checkBufLen_ok (s : State) : (checkBufLen s).ok = decide (s.bufLen ≤ s.params.pbufSize) := rfl
@[simp] theorem checkVbufLen_ok (s : State) : (checkVbufLen s).ok = decide (s.vbufLen ≤ s.params.vbufSize) := rfl
@[simp] theorem checkNameInLen_ok (s : State) : (checkNameInLen s).ok = decide (s.nameInLen ≤ s.params.nameInMax) := rfl
@[simp] theorem checkSlotCount_ok (s : State) : (checkSlotCount s).ok = decide (s.slotCount ≤ s.params.maxSlots) := rfl
@[simp] theorem checkValuesRange_ok (s : State) :
    (checkValuesRange s).ok = decide (s.slotCount = 0 ∨ s.srcOffset + s.slotCount ≤ s.vbufLen) := rfl
@[simp] theorem checkSlotsInBuf_ok (s : State) :
    (checkSlotsInBuf s).ok = decide (s.slotCount = 0 ∨ 126 + s.slotCount ≤ s.bufLen) := rfl
@[simp] theorem checkSeqInBuf_ok (s : State) : (checkSeqInBuf s).ok = decide (112 ≤ s.bufLen) := rfl
@[simp] theorem checkValid_ok (s : State) : (checkValid s).ok = s.status.valid := rfl
@[simp] theorem checkPacketFits_ok (s : State) : (checkPacketFits s).ok =
    decide (packetLength s.framing ≤ s.params.pbufSize ∧ 125 + s.data.count.toNat ≤ packetLength s.framing) := rfl
@[simp] theorem checkPayload_ok (B : List Byte) (n : Nat) :
    (checkPayload B n).ok = decide (125 + (dataDecode B).count.toNat ≤ n) := rfl

/-- PBUF after a write to it. -/
theorem writePbuf_pbufAt (a : Nat) (bs : List Byte) (s : State) (i : Nat) :
    (writePbuf a bs s).pbufAt i = if a ≤ i ∧ i < a + bs.length then bs.getD (i - a) 0 else s.pbufAt i :=
  Memory.read_write _ _ _ _ _

/-- VBUF after a write to it. -/
theorem writeVbuf_vbufAt (a : Nat) (bs : List Byte) (s : State) (i : Nat) :
    (writeVbuf a bs s).vbufAt i = if a ≤ i ∧ i < a + bs.length then bs.getD (i - a) 0 else s.vbufAt i :=
  Memory.read_write _ _ _ _ _

/-- NAME_IN after a write to it. -/
theorem writeNameIn_nameInAt (a : Nat) (bs : List Byte) (s : State) (i : Nat) :
    (writeNameIn a bs s).nameInAt i = if a ≤ i ∧ i < a + bs.length then bs.getD (i - a) 0 else s.nameInAt i :=
  Memory.read_write _ _ _ _ _

/-- PV after a write to it. -/
theorem writePv_pvAt (a : Nat) (bs : List Byte) (s : State) (i : Nat) :
    (writePv a bs s).pvAt i = if a ≤ i ∧ i < a + bs.length then bs.getD (i - a) 0 else s.pvAt i :=
  Memory.read_write _ _ _ _ _

@[simp] theorem pbufRange_length (s : State) (a n : Nat) : (s.pbufRange a n).length = n := Memory.readRange_length _ _ _ _
@[simp] theorem vbufRange_length (s : State) (a n : Nat) : (s.vbufRange a n).length = n := Memory.readRange_length _ _ _ _
@[simp] theorem nameInRange_length (s : State) (a n : Nat) : (s.nameInRange a n).length = n :=
  Memory.readRange_length _ _ _ _
@[simp] theorem pvRange_length (s : State) (a n : Nat) : (s.pvRange a n).length = n := Memory.readRange_length _ _ _ _

theorem pbufRange_getD (s : State) (a n i : Nat) (h : i < n) : (s.pbufRange a n).getD i 0 = s.pbufAt (a + i) :=
  Memory.readRange_getD _ _ _ _ _ h
theorem vbufRange_getD (s : State) (a n i : Nat) (h : i < n) : (s.vbufRange a n).getD i 0 = s.vbufAt (a + i) :=
  Memory.readRange_getD _ _ _ _ _ h
theorem nameInRange_getD (s : State) (a n i : Nat) (h : i < n) : (s.nameInRange a n).getD i 0 = s.nameInAt (a + i) :=
  Memory.readRange_getD _ _ _ _ _ h
theorem pvRange_getD (s : State) (a n i : Nat) (h : i < n) : (s.pvRange a n).getD i 0 = s.pvAt (a + i) :=
  Memory.readRange_getD _ _ _ _ _ h

/-- The DECODE's writes are one of four (42_packet.md R210 (a) to (d)). -/
theorem decodeWrites_cases (s : State) :
    (sizeMalformed s.bufLen = true ∧ decodeWrites s = setMalformed malSize s) ∨
    (sizeMalformed s.bufLen = false ∧ rootMalformed (rootDecode s.packetBytes) s.bufLen = true ∧
      decodeWrites s = setMalformed malRoot { s with root := rootDecode s.packetBytes }) ∨
    (sizeMalformed s.bufLen = false ∧ rootMalformed (rootDecode s.packetBytes) s.bufLen = false ∧
      framingMalformed (framingDecode s.packetBytes) s.bufLen = true ∧
      decodeWrites s = setMalformed malFraming
        { s with root := rootDecode s.packetBytes, framing := framingDecode s.packetBytes }) ∨
    (sizeMalformed s.bufLen = false ∧ rootMalformed (rootDecode s.packetBytes) s.bufLen = false ∧
      framingMalformed (framingDecode s.packetBytes) s.bufLen = false ∧
      decodeWrites s = setWellFormed (writePv 0 (rdstr s.packetBytes 125 (dataDecode s.packetBytes).count.toNat)
        { s with root := rootDecode s.packetBytes, framing := framingDecode s.packetBytes,
                 data := dataDecode s.packetBytes })) := by
  unfold decodeWrites
  cases h1 : sizeMalformed s.bufLen <;> cases h2 : rootMalformed (rootDecode s.packetBytes) s.bufLen <;>
    cases h3 : framingMalformed (framingDecode s.packetBytes) s.bufLen <;> simp [h1, h2, h3]

/-- Every command ends in a next state (60_exceptions.md R251, R257). -/
theorem exec_guarded (i : Instr) (s : State) : ∃ cs done, exec i s = guarded cs s done := by
  cases i
  · exact ⟨_, _, rfl⟩
  · exact ⟨_, _, rfl⟩
  · exact ⟨_, _, rfl⟩
  · exact ⟨_, _, rfl⟩
  · exact ⟨_, _, rfl⟩

end Sys2Proof.Machine
end

