-- ==== Sys2Proof/Laws/PerInstr.lean ====
section
/-! SUPPORT. Statements about every command as syntax, one lemma per constructor. -/

/-- The command is well formed and its encoding decodes to it, with no byte left (30_encoding.md R100, R101). -/
def Sys2Proof.Laws.Encoding.Statement (i : Sys2Proof.Instr) : Prop :=
  i.wf = true ∧ Sys2Proof.decode (Sys2Proof.encode i) = .ok (i, [])

theorem Sys2Proof.Laws.Encoding.build : Sys2Proof.Laws.Encoding.Statement .build := ⟨rfl, rfl⟩

theorem Sys2Proof.Laws.Encoding.encode : Sys2Proof.Laws.Encoding.Statement .encode := ⟨rfl, rfl⟩

theorem Sys2Proof.Laws.Encoding.decode : Sys2Proof.Laws.Encoding.Statement .decode := ⟨rfl, rfl⟩

theorem Sys2Proof.Laws.Encoding.cmpslots : Sys2Proof.Laws.Encoding.Statement .cmpslots := ⟨rfl, rfl⟩

theorem Sys2Proof.Laws.Encoding.patch : Sys2Proof.Laws.Encoding.Statement .patch := ⟨rfl, rfl⟩
end

