-- ==== Sys2Proof/Laws/Port.lean ====
section
/-! SUPPORT. Laws of the host port: the bytes of a u16 register, and what the port reads, region by region. -/

namespace Sys2Proof.Machine

/-- A u16 register is its high byte and its low byte (20_memory.md R87). -/
theorem highByte_append_lowByte (r : U16) : highByte r ++ lowByte r = r := by
  ext i h
  simp only [BitVec.getElem_append, highByte, lowByte, BitVec.getElem_extractLsb']
  split
  · simp [h]
  · rw [show 8 + (i - 8) = i by omega]; simp [h]

theorem highByte_append (x y : Byte) : highByte (x ++ y) = x := by
  ext i h
  simp only [highByte, BitVec.getElem_extractLsb', BitVec.getLsbD_append]
  rw [if_neg (by omega), show 8 + i - 8 = i by omega, BitVec.getLsbD_eq_getElem h]

theorem lowByte_append (x y : Byte) : lowByte (x ++ y) = y := by
  ext i h
  simp only [lowByte, BitVec.getElem_extractLsb', BitVec.getLsbD_append]
  rw [if_pos (by omega), show 0 + i = i by omega, BitVec.getLsbD_eq_getElem h]

/-! A byte write replaces its own byte and keeps the other (20_memory.md R89). -/

@[simp] theorem highByte_setHigh (r : U16) (v : Byte) : highByte (setHigh r v) = v := highByte_append _ _
@[simp] theorem lowByte_setHigh (r : U16) (v : Byte) : lowByte (setHigh r v) = lowByte r := lowByte_append _ _
@[simp] theorem highByte_setLow (r : U16) (v : Byte) : highByte (setLow r v) = highByte r := highByte_append _ _
@[simp] theorem lowByte_setLow (r : U16) (v : Byte) : lowByte (setLow r v) = v := lowByte_append _ _

/-- CMD and the reserved addresses of the control region read 0x00 (20_memory.md R83, 10_state.md R47). -/
theorem controlByte_reserved {n : Nat} (s : State)
    (h : n = 0x00 ∨ n = 0x0D ∨ n = 0x22 ∨ n = 0x23 ∨ (0x29 ≤ n ∧ n < 0x30) ∨ 0x38 ≤ n) : controlByte s n = 0x00 := by
  rw [controlByte]
  · rw [if_neg (by omega)]
  all_goals (intro; omega)

/-- A byte of SENDER_ID after a byte of it is replaced. -/
theorem setIfInBounds_getD (r : Vector Byte 16) (v : Byte) (i j : Nat) (hj : j < 16) :
    (r.setIfInBounds i v).toList.getD j 0 = if j = i then v else r.toList.getD j 0 := by
  simp [List.getD_eq_getElem?_getD, hj]
  by_cases h : j = i
  · simp [h]
  · have h' : i ≠ j := fun e => h e.symm
    simp [h, List.getElem_set_ne h']

/-- What the control region reads after an idle write to it: the byte written, at a writable address, and every other
byte as before (10_state.md R54). -/
theorem controlByte_writeArgs (s : State) (n m : Nat) (v : Byte) :
    controlByte { s with args := writeArgs n v s.args } m =
      if m = n ∧ (0x04 ≤ n ∧ n ≤ 0x21 ∧ n ≠ 0x0D) then v else controlByte s m := by
  by_cases h1 : 0x10 ≤ n ∧ n < 0x20
  · have e : writeArgs n v s.args = { s.args with senderId := s.args.senderId.setIfInBounds (n - 0x10) v } := by
      rw [writeArgs]
      · rw [if_pos h1]
      all_goals (intro; omega)
    rw [e]
    by_cases h2 : 0x10 ≤ m ∧ m < 0x20
    · have e2 : ∀ t : State, controlByte t m = t.args.senderId.toList.getD (m - 0x10) 0 := by
        intro t
        rw [controlByte]
        · rw [if_pos h2]
        all_goals (intro; omega)
      rw [e2, e2, setIfInBounds_getD _ _ _ _ (by omega)]
      congr 1; simp; omega
    · rw [if_neg (by omega)]
      unfold controlByte
      split <;> first | rfl | simp only [if_neg h2]
  · by_cases h2 : 4 ≤ n ∧ n ≤ 0x21 ∧ n ≠ 0xD
    · by_cases hm : m = n
      · subst hm; rw [if_pos ⟨rfl, h2⟩]
        obtain ⟨a, b, c⟩ := h2
        interval_cases m <;> first | omega | simp [writeArgs, controlByte]
      · rw [if_neg (fun h => hm h.1)]
        obtain ⟨a, b, c⟩ := h2
        interval_cases n <;> first | omega | (simp only [writeArgs]; unfold controlByte; split <;> first | rfl | exact absurd rfl hm | simp)
    · rw [if_neg (fun h => h2 h.2)]
      have : writeArgs n v s.args = s.args := by
        rw [writeArgs]
        · rw [if_neg h1]
        all_goals (intro; omega)
      rw [this]

/-! ### The regions of Table 20-1 -/

theorem portByte_control (s : State) {a : Addr} (h : a.toNat < 0x0100) : portByte s a = controlByte s a.toNat := by
  rw [portByte, if_pos h]

theorem portByte_field (s : State) {a : Addr} (h : 0x0100 ≤ a.toNat) (h' : a.toNat < 0x0200) :
    portByte s a = (fieldImage s).getD (a.toNat - 0x0100) 0x00 := by
  rw [portByte, if_neg (by omega), if_pos h']

theorem portByte_nameIn (s : State) {a : Addr} (h : 0x0200 ≤ a.toNat) (h' : a.toNat < 0x0400) :
    portByte s a = windowByte s.params.nameInMax (a.toNat - 0x0200) (s.nameInAt (a.toNat - 0x0200)) := by
  rw [portByte, if_neg (by omega), if_neg (by omega), if_pos h']

theorem portByte_gap (s : State) {a : Addr} (h : 0x0400 ≤ a.toNat) (h' : a.toNat < 0x4000) : portByte s a = 0x00 := by
  rw [portByte, if_neg (by omega), if_neg (by omega), if_neg (by omega), if_pos h']

theorem portByte_pbuf (s : State) {a : Addr} (h : 0x4000 ≤ a.toNat) (h' : a.toNat < 0x8000) :
    portByte s a = windowByte s.params.pbufSize (a.toNat - 0x4000) (s.pbufAt (a.toNat - 0x4000)) := by
  rw [portByte, if_neg (by omega), if_neg (by omega), if_neg (by omega), if_neg (by omega), if_pos h']

theorem portByte_vbuf (s : State) {a : Addr} (h : 0x8000 ≤ a.toNat) (h' : a.toNat < 0xC000) :
    portByte s a = windowByte s.params.vbufSize (a.toNat - 0x8000) (s.vbufAt (a.toNat - 0x8000)) := by
  rw [portByte, if_neg (by omega), if_neg (by omega), if_neg (by omega), if_neg (by omega), if_neg (by omega), if_pos h']

theorem portByte_pv (s : State) {a : Addr} (h : 0xC000 ≤ a.toNat) :
    portByte s a = windowByte s.params.pvCap (a.toNat - 0xC000) (s.pvAt (a.toNat - 0xC000)) := by
  rw [portByte, if_neg (by omega), if_neg (by omega), if_neg (by omega), if_neg (by omega), if_neg (by omega),
    if_neg (by omega)]

end Sys2Proof.Machine
end

