-- ==== Sys2Proof/Laws/Step.lean ====
section
/-! SUPPORT. What one step can do: the inversion lemmas of step, of the completion step and of an idle host write. -/

namespace Sys2Proof.Machine

/-- The completion step runs the command PENDING names, or takes E_BAD_CMD (60_exceptions.md R251). -/
theorem complete_cases (s : State) :
    (∃ i, decode [s.pending] = .ok (i, []) ∧ complete s = exec i s) ∨
    (∃ e, decode [s.pending] = .error e ∧ complete s = .next (takeFault .badCmd s.pending.toNat s)) := by
  cases h : decodeByte s.pending with
  | ok i => exact .inl ⟨i, by simp [decode, h], by simp [complete, decode, h]⟩
  | error e => exact .inr ⟨e, by simp [decode, h], by simp [complete, decode, h]⟩

/-- Every step answers a next state, by the block's turn, by rest, or by one event from outside. -/
theorem step_cases (s : State) :
    (blockTurn s = true ∧ step s = complete s) ∨
    (blockTurn s = false ∧ s.host.inputs = [] ∧ step s = .next s) ∨
    (∃ op rest, blockTurn s = false ∧ s.host.inputs = op :: rest ∧ step s = .next (hostTurn op rest s)) := by
  unfold step
  cases hb : blockTurn s with
  | true => exact .inl ⟨rfl, rfl⟩
  | false =>
    cases hi : s.host.inputs with
    | nil => exact .inr (.inl ⟨rfl, rfl, rfl⟩)
    | cons op rest => exact .inr (.inr ⟨op, rest, rfl, rfl, rfl⟩)

/-- A run of `k + 1` steps is a step and a run of `k`. -/
theorem run_succ_of_next {s t : State} (k : Nat) (h : step s = .next t) :
    Sys2Proof.core.run (k + 1) s = Sys2Proof.core.run k t := by
  have h' : Sys2Proof.core.step s = .next t := h
  simp only [Host.Core.run, h']

/-- While BUSY a host write only sets OVERRUN (60_exceptions.md R252, R254). -/
theorem hostWrite_of_busy {s : State} (a : Addr) (v : Byte) (h : s.status.busy = true) :
    hostWrite a v s = setOverrun s := by simp [hostWrite, h]

/-- While idle a host write is the port's write. -/
theorem hostWrite_of_idle {s : State} (a : Addr) (v : Byte) (h : s.status.busy = false) :
    hostWrite a v s = writeIdle a v s := by simp [hostWrite, h]

/-- While FAULT = 1 a CMD write is ignored (60_exceptions.md R253). -/
theorem writeCmd_of_fault {s : State} (b : Byte) (h : s.status.fault = true) : writeCmd b s = s := by
  simp [writeCmd, h]

/-- While FAULT = 0 a CMD write is accepted (60_exceptions.md R250). -/
theorem writeCmd_of_no_fault {s : State} (b : Byte) (h : s.status.fault = false) : writeCmd b s = accept b s := by
  simp [writeCmd, h]

/-- An idle host write does one of six things (20_memory.md Table 20-1). -/
theorem writeIdle_cases (a : Addr) (v : Byte) (s : State) :
    (a.toNat = 0 ∧ writeIdle a v s = writeCmd v s) ∨
    (0 < a.toNat ∧ a.toNat < 0x0100 ∧ writeIdle a v s = { s with args := writeArgs a.toNat v s.args }) ∨
    (0x0200 ≤ a.toNat ∧ a.toNat < 0x0200 + s.params.nameInMax ∧ a.toNat < 0x0400 ∧
      writeIdle a v s = writeNameIn (a.toNat - 0x0200) [v] s) ∨
    (0x4000 ≤ a.toNat ∧ a.toNat < 0x4000 + s.params.pbufSize ∧ a.toNat < 0x8000 ∧
      writeIdle a v s = writePbuf (a.toNat - 0x4000) [v] s) ∨
    (0x8000 ≤ a.toNat ∧ a.toNat < 0x8000 + s.params.vbufSize ∧ a.toNat < 0xC000 ∧
      writeIdle a v s = writeVbuf (a.toNat - 0x8000) [v] s) ∨
    (0x0100 ≤ a.toNat ∧ ¬(0x0200 ≤ a.toNat ∧ a.toNat < 0x0200 + s.params.nameInMax ∧ a.toNat < 0x0400) ∧
      ¬(0x4000 ≤ a.toNat ∧ a.toNat < 0x4000 + s.params.pbufSize ∧ a.toNat < 0x8000) ∧
      ¬(0x8000 ≤ a.toNat ∧ a.toNat < 0x8000 + s.params.vbufSize ∧ a.toNat < 0xC000) ∧ writeIdle a v s = s) := by
  by_cases h0 : a.toNat = 0x0000
  · exact .inl ⟨h0, if_pos h0⟩
  by_cases h1 : a.toNat < 0x0100
  · exact .inr (.inl ⟨by omega, h1, by simp [writeIdle, h0, h1]⟩)
  by_cases h2 : 0x0200 ≤ a.toNat ∧ a.toNat < 0x0200 + s.params.nameInMax ∧ a.toNat < 0x0400
  · exact .inr (.inr (.inl ⟨h2.1, h2.2.1, h2.2.2, by rw [writeIdle, if_neg h0, if_neg h1, if_pos h2]⟩))
  by_cases h3 : 0x4000 ≤ a.toNat ∧ a.toNat < 0x4000 + s.params.pbufSize ∧ a.toNat < 0x8000
  · exact .inr (.inr (.inr (.inl ⟨h3.1, h3.2.1, h3.2.2, by
      rw [writeIdle, if_neg h0, if_neg h1, if_neg h2, if_pos h3]⟩)))
  by_cases h4 : 0x8000 ≤ a.toNat ∧ a.toNat < 0x8000 + s.params.vbufSize ∧ a.toNat < 0xC000
  · exact .inr (.inr (.inr (.inr (.inl ⟨h4.1, h4.2.1, h4.2.2, by
      rw [writeIdle, if_neg h0, if_neg h1, if_neg h2, if_neg h3, if_pos h4]⟩))))
  · exact .inr (.inr (.inr (.inr (.inr ⟨by omega, h2, h3, h4, by
      rw [writeIdle, if_neg h0, if_neg h1, if_neg h2, if_neg h3, if_neg h4]⟩))))

end Sys2Proof.Machine
end

