-- ==== Sys2Proof/Tests/Slice0.lean ====
section
/-! SUPPORT. Tests: the parameter checks refuse ill-formed records, decoding from written-out bytes, one-step results from
the spec's own examples, and a witness for the hypotheses of every statement. -/

namespace Sys2Proof.Tests

open Sys2Proof.Machine

/-! ### Helpers -/

/-- Whether an outcome is a next state. -/
def answers : Host.Outcome State Fault Refusal → Bool
  | .next _ => true
  | _ => false

/-- The next state of an outcome, or the reset state. -/
def nextOf : Host.Outcome State Fault Refusal → State
  | .next t => t
  | _ => State.reset

theorem next_of_answers {o : Host.Outcome State Fault Refusal} (h : answers o = true) : o = .next (nextOf o) := by
  cases o <;> first | rfl | cases h

/-- The state after a command's completion. -/
def after (i : Instr) (s : State) : State := nextOf (exec i s)

/-- The inputs of the BUILD example of 42_packet.md R200: N = 3, values FF 00 00, SEQ 0, UNIVERSE 1. -/
def inputs3 : State :=
  { State.reset with
    args := { Args.zero with vbufLen := 3, slotCount := 3, univ := 1 }
    vbuf := [(0, 0xFF), (1, 0x00), (2, 0x00)] }

/-- `inputs3` with other length registers and offset. -/
def inputsWith (vbufLen nameInLen slotCount srcOffset : U16) : State :=
  { inputs3 with args := { inputs3.args with
      vbufLen := vbufLen, nameInLen := nameInLen, slotCount := slotCount, srcOffset := srcOffset } }

/-- A buffer of `n` bytes in PBUF, only some of its bytes written. -/
def buffer (n : U16) (pbuf : List Host.Cell) : State :=
  { State.reset with args := { Args.zero with bufLen := n }, pbuf := pbuf }

/-- 125 bytes with root length `r`, framing length `f` and count `c` (each below 256). -/
def buffer125 (r f c : Byte) : State :=
  buffer 125 [(16, 0x70), (17, r), (38, 0x70), (39, f), (123, 0x00), (124, c)]

/-- A held packet with framing length `88 + N` and count `c`, for PBUF of 638 bytes. -/
def held (flen count : U16) : State :=
  { State.reset with
    status := { Status.zero with valid := true }
    framing := { FramingLayer.zero with flen := flen }
    root := { RootLayer.zero with flen := flen + 22 }
    data := { DataLayer.zero with count := count } }

/-- The buffer of 43_fast_path.md's examples as far as they look at it: slots FF 00 00 at 126, N = 3, 129 bytes. -/
def slots3 : State :=
  { inputs3 with
    args := { inputs3.args with bufLen := 129 }
    pbuf := [(111, 0x00), (126, 0xFF), (127, 0x00), (128, 0x00)] }

/-- `slots3` with other length registers and offset. -/
def slotsWith (bufLen vbufLen slotCount srcOffset : U16) : State :=
  { slots3 with args := { slots3.args with
      bufLen := bufLen, vbufLen := vbufLen, slotCount := slotCount, srcOffset := srcOffset } }

/-- An idle block with events to come. -/
def idle (inputs : List HostOp) : State := { State.reset with host := { HostSide.quiet with inputs := inputs } }

/-- A faulted idle block with events to come. -/
def faulted (inputs : List HostOp) : State :=
  { idle inputs with
    status := { Status.zero with fault := true }, faultRec := { code := .badCmd, info := 0, cmd := 0 } }

/-- A block running the command byte `b`, with a delay and events to come. -/
def busy (b : Byte) (delay : Nat) (inputs : List HostOp) : State :=
  { State.reset with
    pending := b, status := { Status.zero with busy := true }
    host := { HostSide.quiet with inputs := inputs, delay := delay } }

/-! ### WellFormed: each check refuses an ill-formed record -/

theorem test_defaults_in_range : Config.defaults.InRange := by decide
theorem test_largest_in_range :
    Params.InRange { maxSlots := 3985, pbufSize := 16384, vbufSize := 16384, nameInMax := 512 } := by decide
theorem test_maxSlots_refused : ¬ Params.InRange { Config.defaults with maxSlots := 3986, pbufSize := 16384 } := by decide
theorem test_pbufSize_low_refused : ¬ Params.InRange { Config.defaults with pbufSize := 637 } := by decide
theorem test_pbufSize_high_refused : ¬ Params.InRange { Config.defaults with pbufSize := 16385 } := by decide
theorem test_vbufSize_refused : ¬ Params.InRange { Config.defaults with vbufSize := 16385 } := by decide
theorem test_nameInMax_refused : ¬ Params.InRange { Config.defaults with nameInMax := 513 } := by decide
theorem test_every_command_wf : ∀ i : Instr, i.wf = true := by intro i; cases i <;> rfl

/-! ### Decode: the opcodes of 30_encoding.md Table 30-1 written out bit by bit -/

theorem test_decode_build : decode [0b00000001#8] = .ok (.build, []) := by rfl
theorem test_decode_encode : decode [0b00000010#8] = .ok (.encode, []) := by rfl
theorem test_decode_decode : decode [0b00000011#8] = .ok (.decode, []) := by rfl
theorem test_decode_cmpslots : decode [0b00000100#8] = .ok (.cmpslots, []) := by rfl
theorem test_decode_patch : decode [0b00000101#8] = .ok (.patch, []) := by rfl
theorem test_decode_zero_refused : decode [0b00000000#8] = .error (.illegalCommand 0b00000000#8) := by rfl
theorem test_decode_six_refused : decode [0b00000110#8] = .error (.illegalCommand 0b00000110#8) := by rfl
theorem test_decode_all_ones_refused : decode [0b11111111#8] = .error (.illegalCommand 0b11111111#8) := by rfl
theorem test_opcode_bit_seven_counts : decodeByte 0b10000001#8 = .error (.illegalCommand 0b10000001#8) := by rfl

/-! ### One command, from the spec's examples -/

/-- 42_packet.md R200, example. -/
theorem test_build_example :
    (after .build inputs3).data.count = 4 ∧ (after .build inputs3).data.flen = 0x700E ∧
    (after .build inputs3).framing.flen = 0x705B ∧ (after .build inputs3).root.flen = 0x7071 ∧
    (after .build inputs3).pvRange 0 4 = [0x00, 0xFF, 0x00, 0x00] := by decide

/-- 42_packet.md R200, corner case N = 0, with SRC_OFFSET any value. -/
theorem test_build_no_slots :
    (after .build (inputsWith 0 0 0 0xFFFF)).data.count = 1 ∧ (after .build (inputsWith 0 0 0 0xFFFF)).data.flen = 0x700B ∧
    (after .build (inputsWith 0 0 0 0xFFFF)).framing.flen = 0x7058 ∧
    (after .build (inputsWith 0 0 0 0xFFFF)).root.flen = 0x706E := by decide

/-- 42_packet.md R205, example, and vector V-L1-1: 129 bytes; bytes 16, 17, 111, 114 and 124 to 126. -/
theorem test_encode_example :
    (after .encode (after .build inputs3)).args.bufLen = 129 ∧
    (after .encode (after .build inputs3)).pbufRange 16 2 = [0x70, 0x71] ∧
    (after .encode (after .build inputs3)).pbufRange 111 4 = [0x00, 0x00, 0x00, 0x01] ∧
    (after .encode (after .build inputs3)).pbufRange 124 3 = [0x04, 0x00, 0xFF] := by decide

/-- 42_packet.md R205: E_NO_PACKET, info 0, when VALID = 0. -/
theorem test_encode_without_packet :
    (after .encode State.reset).faultRec.code.byte = 6 ∧ (after .encode State.reset).faultRec.info = 0 := by decide

/-- 42_packet.md R210, corner case n = 124, and R212: MAL_INFO 0x39. -/
theorem test_decode_124 :
    malInfoByte (after .decode (buffer 124 [])).malInfo = 0x39 ∧
    statusByte (after .decode (buffer 124 [])).status = 0b00001000#8 := by decide

/-- 42_packet.md R210, corner case n = 125 with root length 109, framing length 87: count 0 is valid, count 1 faults. -/
theorem test_decode_125 :
    statusByte (after .decode (buffer125 109 87 0)).status = 0b00000100#8 ∧
    (after .decode (buffer125 109 87 1)).faultRec.code.byte = 5 ∧
    (after .decode (buffer125 109 87 1)).faultRec.info = 125 := by decide

/-- 43_fast_path.md R230, example. -/
theorem test_cmpslots_example :
    (after .cmpslots slots3).status.cmpEq = true ∧
    (after .cmpslots { slots3 with vbuf := [(0, 0xFF), (1, 0x80), (2, 0x00)] }).status.cmpEq = false := by decide

/-- 43_fast_path.md R231, example. -/
theorem test_patch_example :
    (after .patch { slots3 with
      args := { slots3.args with seq := 1 }, vbuf := [(0, 0xFF), (1, 0x80), (2, 0x00)] }).pbuf =
      [(111, 0x01), (126, 0xFF), (127, 0x80), (128, 0x00)] := by decide

/-- The host's placement of a command byte runs it as the first command after reset. -/
theorem test_fetch_word_runs :
    (nextOf (step (State.reset.withFetchWord 8 0x01))).status.valid = true ∧
    (nextOf (step (State.reset.withFetchWord 8 0x06))).faultRec.code = .badCmd := by decide

/-! ### Marshaller and layers, the spec's examples (40_marshaller.md R141, R146; 41_layers.md R161, R162) -/

theorem test_be16 : be16 0x7071 = [0x70, 0x71] := by decide
theorem test_rd32 : rd32 [0x00, 0x00, 0x00, 0x02] 0 = 2 := by decide
theorem test_fixstr_pads : fixstr asciiProtocolId 12 =
    [0x41, 0x53, 0x43, 0x2D, 0x45, 0x31, 0x2E, 0x31, 0x37, 0x00, 0x00, 0x00] := by decide
theorem test_fixstr_truncates : fixstr [0x41, 0x42, 0x43] 2 = [0x41, 0x42] := by decide
theorem test_len12 : len12 0x7071 = 113 ∧ len12 0xF071 = 113 := by decide
theorem test_setlen : setlen 113 = 0x7071 ∧ setlen 0x1234 = 0x7234 := by decide

/-! ### The port and the script notation -/

theorem test_writes_rise_and_replace :
    Memory.write [(1, 0x11), (2, 0x22), (9, 0x99)] 2 [0xAA, 0xBB] = [(1, 0x11), (2, 0xAA), (3, 0xBB), (9, 0x99)] := by decide
theorem test_params_read : portByte State.reset 0x0030 = 0x02 ∧ portByte State.reset 0x0031 = 0x7E := by decide
theorem test_script_wr16 : encodeScript [.wr16 0x000A 0x0103, .cmd .build] =
    [.write 0x000A 0x01, .write 0x000B 0x03, .write 0x0000 0x01, .poll] := by decide

/-! ### Witnesses: a concrete state and operands that meet all the hypotheses of a statement -/

theorem test_witness_OpcodeMapHasFiveLegalBytes :
    ((0x00 : Byte).toNat = 0 ∨ 6 ≤ (0x00 : Byte).toNat) ∧ ((0x06 : Byte).toNat = 0 ∨ 6 ≤ (0x06 : Byte).toNat) ∧
    (1 ≤ (0x01 : Byte).toNat ∧ (0x05 : Byte).toNat ≤ 5) := by decide

theorem test_witness_StepRunsTheDecodedCommand :
    (busy 0x05 0 [.reset]).status.busy = true ∧
    ((busy 0x05 0 [.reset]).host.delay = 0 ∨ (busy 0x05 0 [.reset]).host.inputs = []) ∧
    decode [(busy 0x05 0 [.reset]).pending] = .ok (.patch, []) := by
  exact ⟨rfl, .inl rfl, rfl⟩

theorem test_witness_StepRunsTheDecodedCommand_no_input :
    (busy 0x01 7 []).status.busy = true ∧ (busy 0x01 7 []).host.inputs = [] ∧
    decode [(busy 0x01 7 []).pending] = .ok (.build, []) := by
  exact ⟨rfl, rfl, rfl⟩

theorem test_witness_IllegalByteIsAcceptedThenFaults :
    (6 ≤ (0x06 : Byte).toNat ∧ (idle [.write 0x0000 0x06]).status.busy = false ∧
      (idle [.write 0x0000 0x06]).status.fault = false ∧
      (idle [.write 0x0000 0x06]).host.inputs = .write 0x0000 0x06 :: []) ∧
    ((busy 0x00 0 []).pending.toNat = 0 ∧ (busy 0x00 0 []).status.busy = true ∧ (busy 0x00 0 []).host.delay = 0) ∧
    6 ≤ (busy 0xFF 0 []).pending.toNat := by decide

theorem test_witness_AcceptLatchesPendingAndRaisesBusy :
    (idle [.write 0x0000 0x01, .poll]).status.busy = false ∧ (idle [.write 0x0000 0x01, .poll]).status.fault = false ∧
    (idle [.write 0x0000 0x01, .poll]).host.inputs = .write 0x0000 0x01 :: [.poll] := by decide

theorem test_witness_CommandWriteWhileFaultIsIgnored :
    (faulted [.write 0x0000 0x01]).status.busy = false ∧ (faulted [.write 0x0000 0x01]).status.fault = true ∧
    (faulted [.write 0x0000 0x01]).host.inputs = .write 0x0000 0x01 :: [] := by decide

theorem test_witness_WriteWhileBusyOnlySetsOverrun :
    (busy 0x01 1 [.write 0x0000 0x02]).status.busy = true ∧ (busy 0x01 1 [.write 0x0000 0x02]).host.delay ≠ 0 ∧
    (busy 0x01 1 [.write 0x0000 0x02]).host.inputs = .write 0x0000 0x02 :: [] := by decide

/-- Busy, at STATUS and elsewhere, and idle. -/
theorem test_witness_HostReadChangesNothing :
    ((busy 0x01 1 [.read 0x0001]).status.busy = true ∧ (busy 0x01 1 [.read 0x0001]).host.delay ≠ 0 ∧
      (busy 0x01 1 [.read 0x0001]).host.inputs = .read 0x0001 :: []) ∧
    ((busy 0x01 1 [.read 0x0002]).host.delay ≠ 0 ∧ (busy 0x01 1 [.read 0x0002]).host.inputs = .read 0x0002 :: [] ∧
      (0x0002 : Addr) ≠ 0x0001) ∧
    ((idle [.read 0xFFFF]).status.busy = false ∧ (idle [.read 0xFFFF]).host.inputs = .read 0xFFFF :: []) := by decide

theorem test_witness_WaitPollsStatusUntilIdle :
    ((busy 0x01 1 [.poll]).status.busy = true ∧ (busy 0x01 1 [.poll]).host.delay ≠ 0 ∧
      (busy 0x01 1 [.poll]).host.inputs = .poll :: []) ∧
    ((idle [.poll]).status.busy = false ∧ (idle [.poll]).host.inputs = .poll :: []) := by decide

theorem test_witness_IdleHoldsStateUntilCommandWrite :
    ((idle []).status.busy = false ∧ (idle []).host.inputs = []) ∧
    ((idle [.write 0x0000 0x03]).status.busy = false ∧
      step (idle [.write 0x0000 0x03]) = .next (nextOf (step (idle [.write 0x0000 0x03]))) ∧
      (nextOf (step (idle [.write 0x0000 0x03]))).status.busy = true) :=
  ⟨by decide, by decide, next_of_answers (by decide), by decide⟩

/-- A command and an illegal byte, with no reset to come; and one that a reset will abandon. -/
theorem test_witness_EveryAcceptedCommandCompletes :
    ((busy 0x02 3 [.poll]).status.busy = true ∧ HostOp.reset ∉ (busy 0x02 3 [.poll]).host.inputs ∧
      decodeByte (busy 0x02 3 [.poll]).pending = .ok .encode) ∧
    ((busy 0x06 0 []).status.busy = true ∧ HostOp.reset ∉ (busy 0x06 0 []).host.inputs ∧
      decodeByte (busy 0x06 0 []).pending = .error (.illegalCommand 0x06)) ∧
    (busy 0x01 1 [.reset]).status.busy = true :=
  ⟨⟨rfl, by decide, rfl⟩, ⟨rfl, by decide, rfl⟩, rfl⟩

/-- The inputs of program P5 at its race, with the two latencies. -/
theorem test_witness_WriteRacingTheCompletionHasTwoOutcomes :
    ∀ l ∈ [0, 1], ∃ s : State, s.status.busy = false ∧ s.status.fault = false ∧ EncodeAccepts s ∧
      s.host.inputs = [.write 0x0000 0x02, .write 0x000C 0x09] ∧ s.host.latencies = l :: [] := by
  intro l _
  refine ⟨{ held 0x705B 4 with host := { HostSide.quiet with
    inputs := [.write 0x0000 0x02, .write 0x000C 0x09], latencies := [l] } }, rfl, rfl, ?_, rfl, rfl⟩
  show (held 0x705B 4).status.valid = true ∧ packetLength (held 0x705B 4).framing ≤ (held 0x705B 4).params.pbufSize ∧
    125 + (held 0x705B 4).data.count.toNat ≤ packetLength (held 0x705B 4).framing
  decide

/-- Every writable region at its last address, and an address that is not writable. -/
theorem test_witness_IdleWriteThenRead :
    State.reset.status.busy = false ∧ (0x0004 : Addr) ≠ 0x0000 ∧ (0x81FF : Addr) ≠ 0x0000 ∧
    hostWritable Config.defaults 0x0004 ∧ hostWritable Config.defaults 0x0021 ∧ hostWritable Config.defaults 0x027F ∧
    hostWritable Config.defaults 0x427D ∧ hostWritable Config.defaults 0x81FF ∧
    ¬ hostWritable Config.defaults 0x427E ∧ (0x0005 : Addr) ≠ 0x0004 :=
  ⟨rfl, by decide, by decide, by decide, by decide, by decide, by decide, by decide, by decide, by decide⟩

/-- The last byte of each window below capacity, and the last byte of SENDER_ID. -/
theorem test_witness_IdleWriteThenRead_windows :
    127 < Config.defaults.nameInMax ∧ 637 < Config.defaults.pbufSize ∧ 511 < Config.defaults.vbufSize ∧
    512 < Config.defaults.pvCap ∧ 127 < 0x0200 ∧ 637 < 0x4000 ∧ 15 < 16 := by decide

theorem test_witness_ReservedReadsZeroAndIgnoresWrites :
    State.reset.status.busy = false ∧ reservedAddr 0x000D ∧ reservedAddr 0x0029 ∧ reservedAddr 0x0038 ∧ reservedAddr 0x017D ∧
    reservedAddr 0x3FFF ∧ beyondCapacity Config.defaults 0x0280 ∧ beyondCapacity Config.defaults 0x427E ∧
    beyondCapacity Config.defaults 0x8200 ∧ beyondCapacity Config.defaults 0xC201 :=
  ⟨rfl, by decide, by decide, by decide, by decide, by decide, by decide,
    by decide, by decide, by decide⟩

theorem test_witness_FieldRegistersIgnoreHostWrites :
    State.reset.status.busy = false ∧ (0x0100 ≤ (0x0100 : Addr).toNat ∧ (0x0100 : Addr).toNat ≤ 0x017C) ∧
    (0x0100 ≤ (0x017C : Addr).toNat ∧ (0x017C : Addr).toNat ≤ 0x017C) ∧ 0xC000 ≤ (0xC000 : Addr).toNat := by decide

theorem test_witness_ParameterRegistersAreConstant :
    State.reset.params.InRange ∧ step (idle [.reset]) = .next (nextOf (step (idle [.reset]))) :=
  ⟨by decide, next_of_answers (by decide)⟩

theorem test_witness_ByteWriteChangesHalfAnArgument : State.reset.status.busy = false := by decide

theorem test_witness_FixedStringTruncatesOrPads : (63 : Nat) < 64 ∧ (0 : Nat) < 64 := by decide

/-- N = 0 and N = 3, each at the end of its range. -/
theorem test_witness_BuildWritesLayersAndValues :
    inputs3.params.maxSlots ≤ 3985 ∧ inputs3.params.InRange ∧ BuildAccepts inputs3 ∧
    BuildAccepts (inputsWith 512 128 512 0) ∧ BuildAccepts (inputsWith 0 0 0 0xFFFF) := by decide

theorem test_witness_BuildLengthsInClosedForm :
    inputs3.params.maxSlots ≤ 3985 ∧ BuildAccepts inputs3 ∧ exec .build inputs3 = .next (after .build inputs3) :=
  ⟨by decide, by decide, next_of_answers (by decide)⟩

theorem test_witness_BuildNeverLeavesMalformedPacket :
    (inputs3.status.fault = false ∧ exec .build inputs3 = .next (after .build inputs3)) ∧
    ((inputsWith 3 0 3 1).status.fault = false ∧ ¬ BuildAccepts (inputsWith 3 0 3 1) ∧
      exec .build (inputsWith 3 0 3 1) = .next (after .build (inputsWith 3 0 3 1))) :=
  ⟨⟨by decide, next_of_answers (by decide)⟩, by decide, by decide, next_of_answers (by decide)⟩

/-- Each clause at the first value past its bound. -/
theorem test_witness_BuildFaultsInOrder :
    (inputsWith 513 0 0 0).params.vbufSize < (inputsWith 513 0 0 0).vbufLen ∧
    ((inputsWith 512 129 0 0).vbufLen ≤ (inputsWith 512 129 0 0).params.vbufSize ∧
      (inputsWith 512 129 0 0).params.nameInMax < (inputsWith 512 129 0 0).nameInLen) ∧
    ((inputsWith 512 128 513 0).vbufLen ≤ (inputsWith 512 128 513 0).params.vbufSize ∧
      (inputsWith 512 128 513 0).nameInLen ≤ (inputsWith 512 128 513 0).params.nameInMax ∧
      (inputsWith 512 128 513 0).params.maxSlots < (inputsWith 512 128 513 0).slotCount) ∧
    ((inputsWith 3 128 3 1).vbufLen ≤ (inputsWith 3 128 3 1).params.vbufSize ∧
      (inputsWith 3 128 3 1).nameInLen ≤ (inputsWith 3 128 3 1).params.nameInMax ∧
      (inputsWith 3 128 3 1).slotCount ≤ (inputsWith 3 128 3 1).params.maxSlots ∧ 0 < (inputsWith 3 128 3 1).slotCount ∧
      (inputsWith 3 128 3 1).vbufLen < (inputsWith 3 128 3 1).srcOffset + (inputsWith 3 128 3 1).slotCount) := by decide

/-- No trailing bytes, and some. -/
theorem test_witness_EncodeWritesThePacketImage :
    EncodeAccepts (held 0x705B 4) ∧ EncodeAccepts (held 0x705B 0) ∧ EncodeAccepts (held 0x7258 513) := by decide

theorem test_witness_BuildThenEncodeWritesTheWireTable :
    inputs3.params.InRange ∧ BuildAccepts inputs3 := by decide

theorem test_witness_EncodedLengthOfBuiltPacket :
    inputs3.params.InRange ∧ BuildAccepts inputs3 ∧ exec .build inputs3 = .next (after .build inputs3) ∧
    exec .encode (after .build inputs3) = .next (after .encode (after .build inputs3)) :=
  ⟨by decide, by decide, next_of_answers (by decide), next_of_answers (by decide)⟩

/-- The invariant holds of a held packet of three slots. -/
theorem test_held_inv : Inv (held 0x705B 4) where
  params_inRange := by decide
  pbuf_wf := by decide
  vbuf_wf := by decide
  nameIn_wf := by decide
  pv_wf := by decide
  packet_fits := by decide
  root_counts_framing := by decide
  malInfo_agrees := by decide
  no_fault_no_record := by decide
  fault_has_code := by decide
  info_is_u16 := by decide
  busy_not_fault := by decide

theorem test_witness_EncodeRangeCheckNeverFails :
    Inv (held 0x705B 4) ∧ (held 0x705B 4).status.valid = true ∧
    exec .encode (held 0x705B 4) = .next (after .encode (held 0x705B 4)) :=
  ⟨test_held_inv, by decide, next_of_answers (by decide)⟩

/-- VALID = 0; a packet one byte longer than PBUF; a count one above the packet's length. -/
theorem test_witness_EncodeFaultsInOrder :
    State.reset.status.valid = false ∧
    ((held 0x7259 4).status.valid = true ∧ (held 0x7259 4).params.pbufSize < packetLength (held 0x7259 4).framing) ∧
    ((held 0x705B 5).status.valid = true ∧
      packetLength (held 0x705B 5).framing < 125 + (held 0x705B 5).data.count.toNat) := by decide

theorem test_witness_SecondEncodeChangesNothing :
    exec .encode (held 0x705B 4) = .next (after .encode (held 0x705B 4)) := next_of_answers (by decide)

theorem test_witness_FieldImageReadsLikeThePacket :
    EncodeAccepts (held 0x705B 4) ∧ exec .encode (held 0x705B 4) = .next (after .encode (held 0x705B 4)) ∧ 124 < 125 :=
  ⟨by decide, next_of_answers (by decide), by decide⟩

theorem test_witness_DecodeOfShortBufferIsMalformed :
    (buffer 124 []).bufLen ≤ (buffer 124 []).params.pbufSize ∧ (buffer 124 []).bufLen < 125 := by decide

theorem test_witness_DecodeWithWrongRootLength :
    (buffer125 110 87 0).bufLen ≤ (buffer125 110 87 0).params.pbufSize ∧ 125 ≤ (buffer125 110 87 0).bufLen ∧
    len12 ((buffer125 110 87 0).wire16 16) ≠ (buffer125 110 87 0).bufLen - 16 := by decide

theorem test_witness_DecodeWithWrongFramingLength :
    (buffer125 109 86 0).bufLen ≤ (buffer125 109 86 0).params.pbufSize ∧ 125 ≤ (buffer125 109 86 0).bufLen ∧
    len12 ((buffer125 109 86 0).wire16 16) = (buffer125 109 86 0).bufLen - 16 ∧
    len12 ((buffer125 109 86 0).wire16 38) ≠ (buffer125 109 86 0).bufLen - 38 := by decide

theorem test_witness_DecodeOfGoodPacketFillsTheLayers :
    (buffer125 109 87 0).bufLen ≤ (buffer125 109 87 0).params.pbufSize ∧ 125 ≤ (buffer125 109 87 0).bufLen ∧
    len12 ((buffer125 109 87 0).wire16 16) = (buffer125 109 87 0).bufLen - 16 ∧
    len12 ((buffer125 109 87 0).wire16 38) = (buffer125 109 87 0).bufLen - 38 ∧
    125 + ((buffer125 109 87 0).wire16 123).toNat ≤ (buffer125 109 87 0).bufLen := by decide

/-- A BUF_LEN one above the capacity; a count one past the buffer. -/
theorem test_witness_DecodeFaultsInOrder :
    (buffer 639 []).params.pbufSize < (buffer 639 []).bufLen ∧
    ((buffer125 109 87 1).bufLen ≤ (buffer125 109 87 1).params.pbufSize ∧ 125 ≤ (buffer125 109 87 1).bufLen ∧
      len12 ((buffer125 109 87 1).wire16 16) = (buffer125 109 87 1).bufLen - 16 ∧
      len12 ((buffer125 109 87 1).wire16 38) = (buffer125 109 87 1).bufLen - 38 ∧
      (buffer125 109 87 1).bufLen < 125 + ((buffer125 109 87 1).wire16 123).toNat) := by decide

theorem test_witness_BoundsAfterSuccessfulDecode :
    (buffer125 109 87 0).status.fault = false ∧
    exec .decode (buffer125 109 87 0) = .next (after .decode (buffer125 109 87 0)) ∧
    (after .decode (buffer125 109 87 0)).status.fault = false ∧
    (after .decode (buffer125 109 87 0)).status.valid = true :=
  ⟨by decide, next_of_answers (by decide), by decide, by decide⟩

theorem test_witness_SecondDecodeGivesTheSameResult :
    exec .decode (buffer125 109 87 0) = .next (after .decode (buffer125 109 87 0)) := next_of_answers (by decide)

/-- Two buffers that differ in the flags nibbles and in a byte no check reads. -/
theorem test_witness_OnlyLengthsAndCountAreValidated :
    ∃ s s' : State, s'.pbuf ≠ s.pbuf ∧ s'.params = s.params ∧ s'.args.bufLen = s.args.bufLen ∧
      s'.status = s.status ∧ s'.faultRec = s.faultRec ∧ s'.pending = s.pending ∧
      len12 (s'.wire16 16) = len12 (s.wire16 16) ∧ len12 (s'.wire16 38) = len12 (s.wire16 38) ∧
      s'.wire16 123 = s.wire16 123 ∧ exec .decode s = .next (after .decode s) ∧
      exec .decode s' = .next (after .decode s') ∧ (after .decode s).status.fault = false :=
  ⟨buffer125 109 87 0,
    buffer 125 [(5, 0x99), (16, 0xF0), (17, 109), (38, 0x00), (39, 87), (123, 0x00), (124, 0)],
    by decide, rfl, rfl, rfl, rfl, rfl, by decide, by decide, by decide,
    next_of_answers (by decide), next_of_answers (by decide), by decide⟩

theorem test_witness_BuildEncodeDecodeRoundTrip :
    inputs3.params.InRange ∧ BuildAccepts inputs3 ∧ SamePacket (after .build inputs3) (after .build inputs3) ∧
    SameBuffer (after .encode (after .build inputs3)) (after .encode (after .build inputs3)) :=
  ⟨by decide, by decide, ⟨rfl, rfl, rfl, rfl, rfl, rfl, rfl⟩, ⟨rfl, rfl, rfl, rfl⟩⟩

/-- Cut by one byte, to 125 bytes, to 124, and to nothing. -/
theorem test_witness_TruncatedPacketIsMalformed :
    inputs3.params.InRange ∧ BuildAccepts inputs3 ∧
    ∀ k ∈ [1, 4, 5, 129], 1 ≤ k ∧ k ≤ 126 + inputs3.slotCount := by decide

theorem test_witness_CmpslotsComparesEverySlot :
    SlotsAccept slots3 ∧ SlotsAccept (slotsWith 0 0 0 0xFFFF) := by decide

theorem test_witness_CmpslotsFaultsInOrder :
    (slotsWith 639 0 0 0).params.pbufSize < (slotsWith 639 0 0 0).bufLen ∧
    ((slotsWith 638 513 0 0).bufLen ≤ (slotsWith 638 513 0 0).params.pbufSize ∧
      (slotsWith 638 513 0 0).params.vbufSize < (slotsWith 638 513 0 0).vbufLen) ∧
    ((slotsWith 128 3 3 0).bufLen ≤ (slotsWith 128 3 3 0).params.pbufSize ∧
      (slotsWith 128 3 3 0).vbufLen ≤ (slotsWith 128 3 3 0).params.vbufSize ∧ 0 < (slotsWith 128 3 3 0).slotCount ∧
      (slotsWith 128 3 3 0).bufLen < 126 + (slotsWith 128 3 3 0).slotCount) ∧
    ((slotsWith 129 3 3 1).bufLen ≤ (slotsWith 129 3 3 1).params.pbufSize ∧
      (slotsWith 129 3 3 1).vbufLen ≤ (slotsWith 129 3 3 1).params.vbufSize ∧ 0 < (slotsWith 129 3 3 1).slotCount ∧
      126 + (slotsWith 129 3 3 1).slotCount ≤ (slotsWith 129 3 3 1).bufLen ∧
      (slotsWith 129 3 3 1).vbufLen < (slotsWith 129 3 3 1).srcOffset + (slotsWith 129 3 3 1).slotCount) := by decide

theorem test_witness_PatchWritesSequenceAndSlots :
    (SlotsAccept slots3 ∧ 112 ≤ slots3.bufLen) ∧
    (SlotsAccept (slotsWith 112 0 0 0) ∧ 112 ≤ (slotsWith 112 0 0 0).bufLen) := by decide

theorem test_witness_PatchFaultsInOrder :
    (slotsWith 639 0 0 0).params.pbufSize < (slotsWith 639 0 0 0).bufLen ∧
    ((slotsWith 638 513 0 0).bufLen ≤ (slotsWith 638 513 0 0).params.pbufSize ∧
      (slotsWith 638 513 0 0).params.vbufSize < (slotsWith 638 513 0 0).vbufLen) ∧
    ((slotsWith 111 3 3 0).bufLen ≤ (slotsWith 111 3 3 0).params.pbufSize ∧
      (slotsWith 111 3 3 0).vbufLen ≤ (slotsWith 111 3 3 0).params.vbufSize ∧ (slotsWith 111 3 3 0).bufLen < 112) ∧
    ((slotsWith 112 3 3 0).bufLen ≤ (slotsWith 112 3 3 0).params.pbufSize ∧
      (slotsWith 112 3 3 0).vbufLen ≤ (slotsWith 112 3 3 0).params.vbufSize ∧ 112 ≤ (slotsWith 112 3 3 0).bufLen ∧
      0 < (slotsWith 112 3 3 0).slotCount ∧ (slotsWith 112 3 3 0).bufLen < 126 + (slotsWith 112 3 3 0).slotCount) ∧
    ((slotsWith 129 3 3 1).bufLen ≤ (slotsWith 129 3 3 1).params.pbufSize ∧
      (slotsWith 129 3 3 1).vbufLen ≤ (slotsWith 129 3 3 1).params.vbufSize ∧ 0 < (slotsWith 129 3 3 1).slotCount ∧
      126 + (slotsWith 129 3 3 1).slotCount ≤ (slotsWith 129 3 3 1).bufLen ∧
      (slotsWith 129 3 3 1).vbufLen < (slotsWith 129 3 3 1).srcOffset + (slotsWith 129 3 3 1).slotCount) := by decide

theorem test_witness_PatchEqualsFreshEncode :
    inputs3.params.InRange ∧ BuildAccepts inputs3 ∧ BuildAccepts (withNewSlots [(4, 0x80)] 7 4 0xFF inputs3) := by decide

theorem test_witness_EncodeAfterPatchUndoesIt :
    ∃ s : State, EncodeAccepts s ∧ 112 ≤ s.bufLen ∧ exec .patch s = .next (after .patch s) ∧
      exec .encode (after .patch s) = .next (after .encode (after .patch s)) ∧
      exec .encode s = .next (after .encode s) :=
  ⟨{ held 0x705B 4 with args := { Args.zero with bufLen := 129, seq := 1 } }, by decide, by decide,
    next_of_answers (by decide), next_of_answers (by decide), next_of_answers (by decide)⟩

theorem test_witness_FaultDiscardsEveryWrite :
    (busy 0x02 0 []).status.busy = true ∧ (busy 0x02 0 []).host.delay = 0 ∧ (busy 0x02 0 []).status.fault = false ∧
    step (busy 0x02 0 []) = .next (nextOf (step (busy 0x02 0 []))) ∧
    (nextOf (step (busy 0x02 0 []))).status.fault = true :=
  ⟨by decide, by decide, by decide, next_of_answers (by decide), by decide⟩

/-- One command of each clause. -/
theorem test_witness_CommandsChangeOnlyTheirFlags :
    (Instr.patch ≠ .cmpslots ∧ Instr.patch ≠ .build ∧ Instr.patch ≠ .decode ∧
      exec .patch slots3 = .next (after .patch slots3)) ∧
    ((faulted []).status.fault = true ∧ exec .build (faulted []) = .next (after .build (faulted []))) :=
  ⟨⟨by decide, by decide, by decide, next_of_answers (by decide)⟩, by decide, next_of_answers (by decide)⟩

theorem test_witness_CommandsWriteOnlyTheirTargets :
    Instr.cmpslots ≠ .encode ∧ Instr.cmpslots ≠ .patch ∧ Instr.cmpslots ≠ .build ∧ Instr.cmpslots ≠ .decode ∧
    exec .cmpslots slots3 = .next (after .cmpslots slots3) :=
  ⟨by decide, by decide, by decide, by decide, next_of_answers (by decide)⟩

theorem test_witness_FaultIsStickyUntilReset :
    (faulted [.write 0x0000 0x01]).status.fault = true ∧ (faulted [.write 0x0000 0x01]).status.busy = false ∧
    (∀ rest, (faulted [.write 0x0000 0x01]).host.inputs ≠ .reset :: rest) ∧
    step (faulted [.write 0x0000 0x01]) = .next (nextOf (step (faulted [.write 0x0000 0x01]))) :=
  ⟨by decide, by decide, (fun _ h => nomatch h), next_of_answers (by decide)⟩

theorem test_witness_OnlyResetClearsOverrunAndFault :
    step (faulted [.reset]) = .next (nextOf (step (faulted [.reset]))) ∧
    (faulted [.reset]).status.fault = true ∧ (nextOf (step (faulted [.reset]))).status.fault = false :=
  ⟨next_of_answers (by decide), by decide, by decide⟩

theorem test_witness_EveryRegisterIsZeroAfterReset :
    (0x01FF : Addr).toNat < 0x0200 ∧ ¬ (0x0030 ≤ (0x01FF : Addr).toNat ∧ (0x01FF : Addr).toNat ≤ 0x0037) ∧
    ¬ (0x0030 ≤ (0x002F : Addr).toNat ∧ (0x002F : Addr).toNat ≤ 0x0037) := by decide

/-- While a command is in progress, and while idle. -/
theorem test_witness_ResetInputResetsEveryRegister :
    ((busy 0x01 1 [.reset]).host.delay ≠ 0 ∧ (busy 0x01 1 [.reset]).host.inputs = .reset :: []) ∧
    ((idle [.reset]).status.busy = false ∧ (idle [.reset]).host.inputs = .reset :: []) := by decide

theorem test_witness_InvariantHoldsAfterReset : Config.defaults.InRange := by decide

theorem test_witness_StepKeepsTheInvariant :
    Inv (held 0x705B 4) ∧ step (held 0x705B 4) = .next (nextOf (step (held 0x705B 4))) :=
  ⟨test_held_inv, next_of_answers (by decide)⟩

theorem test_witness_ValidPacketFitsInEveryRun :
    Inv (held 0x705B 4) ∧ Sys2Proof.core.run 0 (held 0x705B 4) = .next (held 0x705B 4) ∧
    (held 0x705B 4).status.valid = true :=
  ⟨test_held_inv, rfl, by decide⟩

end Sys2Proof.Tests
end

/-! ### The encoding family: the command byte, its acceptance and its completion -/

namespace Sys2Proof.Machine

/-! ### The opcode map -/

/-- Every opcode of Table 30-1 decodes to its command (30_encoding.md R101). -/
@[simp] theorem decodeByte_opcode (i : Instr) : decodeByte (opcode i) = .ok i := by
  cases i <;> rfl

/-- The values 1 to 5 are all opcodes (30_encoding.md Table 30-1). -/
theorem exists_opcode_eq {b : Byte} (h1 : 1 ≤ b.toNat) (h5 : b.toNat ≤ 5) : ∃ i, opcode i = b := by
  obtain h | h | h | h | h :
    b.toNat = 1 ∨ b.toNat = 2 ∨ b.toNat = 3 ∨ b.toNat = 4 ∨ b.toNat = 5 := by omega
  · exact ⟨.build, BitVec.eq_of_toNat_eq h.symm⟩
  · exact ⟨.encode, BitVec.eq_of_toNat_eq h.symm⟩
  · exact ⟨.decode, BitVec.eq_of_toNat_eq h.symm⟩
  · exact ⟨.cmpslots, BitVec.eq_of_toNat_eq h.symm⟩
  · exact ⟨.patch, BitVec.eq_of_toNat_eq h.symm⟩

/-- A byte outside 1 to 5 is no command, and the error carries it (30_encoding.md R102). -/
theorem decodeByte_of_illegal {b : Byte} (h : b.toNat = 0 ∨ 6 ≤ b.toNat) :
    decodeByte b = .error (.illegalCommand b) := by
  unfold decodeByte
  split
  case h_6 => rfl
  all_goals omega

theorem exists_decodeByte_ok_iff (b : Byte) : (∃ i, decodeByte b = .ok i) ↔ 1 ≤ b.toNat ∧ b.toNat ≤ 5 := by
  constructor
  · rintro ⟨i, hi⟩
    by_contra hout
    rw [decodeByte_of_illegal (by omega)] at hi
    cases hi
  · rintro ⟨h1, h5⟩
    obtain ⟨i, rfl⟩ := exists_opcode_eq h1 h5
    exact ⟨i, decodeByte_opcode i⟩

/-- Settles O1: the five opcodes by `decodeByte_opcode`, the legal range and the refusals by the lemmas on all bytes. -/
theorem opcodeMapHasFiveLegalBytes : Obligations.OpcodeMapHasFiveLegalBytes :=
  ⟨decodeByte_opcode .build, decodeByte_opcode .encode, decodeByte_opcode .decode, decodeByte_opcode .cmpslots,
    decodeByte_opcode .patch, exists_decodeByte_ok_iff, fun _ => decodeByte_of_illegal⟩

/-! ### Whose turn a step is -/

/-- A busy block moves next once its delay is over or no event is left (70_reset_and_hazards.md R301, R302). -/
theorem blockTurn_of_due {s : State} (hbusy : s.status.busy = true) (hdue : s.host.delay = 0 ∨ s.host.inputs = []) :
    blockTurn s = true := by
  simpa [blockTurn, hbusy] using hdue

theorem blockTurn_of_idle {s : State} (hidle : s.status.busy = false) : blockTurn s = false := by
  simp [blockTurn, hidle]

theorem step_of_blockTurn {s : State} (h : blockTurn s = true) : step s = complete s := by
  simp [step, h]

/-- When it is not the block's turn, the next event from outside happens. -/
theorem step_of_input {s : State} {op : HostOp} {rest : List HostOp} (h : blockTurn s = false)
    (hin : s.host.inputs = op :: rest) : step s = .next (hostTurn op rest s) := by
  simp [step, h, hin]

/-! ### An illegal command byte -/

/-- The model's fault is the one the statements name (60_exceptions.md R257). -/
theorem takeFault_eq_raised (code : FaultCode) (info : Nat) (s : State) : takeFault code info s = raised code info s := rfl

/-- With an illegal byte in PENDING the completion step raises E_BAD_CMD (30_encoding.md R102). -/
theorem complete_of_illegal {s : State} (h : s.pending.toNat = 0 ∨ 6 ≤ s.pending.toNat) :
    complete s = .next (raised .badCmd s.pending.toNat s) := by
  simp [complete, decode, decodeByte_of_illegal h, takeFault_eq_raised]

/-- An idle block without a fault accepts any byte written to CMD, legal or not (60_exceptions.md R250). -/
theorem step_of_cmd_write {s : State} {b : Byte} {rest : List HostOp} (hidle : s.status.busy = false)
    (hfault : s.status.fault = false) (hin : s.host.inputs = .write 0x0000 b :: rest) :
    step s = .next (accept b (popInput rest s)) := by
  have hwrite : hostTurn (.write 0x0000 b) rest s = accept b (popInput rest s) := calc
    hostWrite 0x0000 b (popInput rest s) = writeIdle 0x0000 b (popInput rest s) := hostWrite_of_idle _ _ hidle
    _ = writeCmd b (popInput rest s) := rfl
    _ = accept b (popInput rest s) := writeCmd_of_no_fault b hfault
  rw [step_of_input (blockTurn_of_idle hidle) hin, hwrite]

/-- Settles O5: the acceptance does not look at the byte, and the completion step decodes it and faults. -/
theorem illegalByteIsAcceptedThenFaults : Obligations.IllegalByteIsAcceptedThenFaults := by
  constructor
  · intro s b rest _ hidle hfault hin
    exact ⟨nextDelay (popInput rest s).host, step_of_cmd_write hidle hfault hin⟩
  · intro s hillegal hbusy hdue
    rw [step_of_blockTurn (blockTurn_of_due hbusy hdue), complete_of_illegal hillegal]

end Sys2Proof.Machine

/-! ### The marshaller family: the big-endian round trips and the fixed-length string -/

namespace Sys2Proof.Machine

/-! ### Big-endian reads -/

/-- Where the bytes at `k` and `k + 1` are the high and the low byte of `v`, a 16-bit read at `k` gives `v`
(40_marshaller.md R141, R142). -/
theorem rd16_of_bytes {B : List Byte} {k : Nat} {v : U16} (h0 : B.getD k 0 = v.extractLsb' 8 8)
    (h1 : B.getD (k + 1) 0 = v.extractLsb' 0 8) : rd16 B k = v := by
  rw [rd16, h0, h1, BitVec.extractLsb'_append_extractLsb'_eq_extractLsb' (rfl : 8 = 0 + 8)]
  exact BitVec.extractLsb'_eq_self

/-- Where the bytes at `k` to `k + 3` are those of `v` from the highest down, a 32-bit read at `k` gives `v`
(40_marshaller.md R143, R144). -/
theorem rd32_of_bytes {B : List Byte} {k : Nat} {v : U32} (h0 : B.getD k 0 = v.extractLsb' 24 8)
    (h1 : B.getD (k + 1) 0 = v.extractLsb' 16 8) (h2 : B.getD (k + 2) 0 = v.extractLsb' 8 8)
    (h3 : B.getD (k + 3) 0 = v.extractLsb' 0 8) : rd32 B k = v := by
  rw [rd32, h0, h1, h2, h3, BitVec.extractLsb'_append_extractLsb'_eq_extractLsb' (rfl : 24 = 16 + 8),
    BitVec.extractLsb'_append_extractLsb'_eq_extractLsb' (rfl : 16 = 8 + 8),
    BitVec.extractLsb'_append_extractLsb'_eq_extractLsb' (rfl : 8 = 0 + 8)]
  exact BitVec.extractLsb'_eq_self

/-- Settles O21: the bytes `be16` and `be32` list are the ones the reads at offset 0 put together. -/
theorem bigEndianRoundTrip : Obligations.BigEndianRoundTrip :=
  ⟨fun _ => rd16_of_bytes rfl rfl, fun _ => rd32_of_bytes rfl rfl rfl rfl⟩

/-! ### The fixed-length string -/

/-- A string with at least `k` bytes is cut to its first `k` (40_marshaller.md R146). -/
theorem fixstr_of_le {s : List Byte} {k : Nat} (h : k ≤ s.length) : fixstr s k = s.take k := if_pos h

/-- A string with fewer than `k` bytes is filled up with zeros (40_marshaller.md R146). -/
theorem fixstr_of_lt {s : List Byte} {k : Nat} (h : s.length < k) : fixstr s k = s ++ zeros (k - s.length) :=
  if_neg (Nat.not_le.mpr h)

@[simp] theorem fixstr_length (s : List Byte) (k : Nat) : (fixstr s k).length = k := by
  obtain hcut | hpad := le_or_gt k s.length
  · rw [fixstr_of_le hcut, List.length_take_of_le hcut]
  · rw [fixstr_of_lt hpad, List.length_append, List.length_replicate, Nat.add_sub_of_le hpad.le]

/-- Reading `s` past its end gives 0x00 too, so cut and padded alike the first `k` bytes are the bytes of `s`. -/
theorem fixstr_getD (s : List Byte) {k i : Nat} (hi : i < k) : (fixstr s k).getD i 0 = s.getD i 0 := by
  obtain hcut | hpad := le_or_gt k s.length
  · rw [fixstr_of_le hcut, List.getD_eq_getElem?_getD, List.getElem?_take_of_lt hi, List.getD_eq_getElem?_getD]
  · rw [fixstr_of_lt hpad]
    obtain hin | hout := lt_or_ge i s.length
    · exact List.getD_append _ _ _ _ hin
    · rw [List.getD_append_right _ _ _ _ hout, List.getD_replicate _ (by omega), List.getD_eq_default _ _ hout]
      rfl

/-- Settles O22: the length and the bytes of `fixstr`, where a byte of `s` past its end is 0x00. -/
theorem fixedStringTruncatesOrPads : Obligations.FixedStringTruncatesOrPads := by
  refine fun s k => ⟨fixstr_length s k, fun i hi => ?_⟩
  rw [fixstr_getD s hi]
  split
  · rfl
  next hout => exact List.getD_eq_default _ _ (Nat.not_lt.mp hout)

end Sys2Proof.Machine

/-! ### The layers family: the length field -/

namespace Sys2Proof.Machine

/-- The mask 0x0FFF keeps the low 12 bits, so the getter reduces modulo 4096 (41_layers.md R161). -/
theorem len12_eq_mod (v : U16) : len12 v = v.toNat % 4096 := calc
  len12 v = v.toNat &&& (2 ^ 12 - 1) := by rw [len12, BitVec.toNat_and]; rfl
  _ = v.toNat % 4096 := Nat.and_two_pow_sub_one_eq_mod v.toNat 12

/-- The flags nibble stands above the 12 bits of a length, so the setter's `|||` is a sum (41_layers.md R162). -/
theorem setlen_toNat (v : U16) : (setlen v).toNat = 0x7000 + v.toNat % 4096 := calc
  (setlen v).toNat = 2 ^ 12 * 7 ||| len12 v := by rw [setlen, BitVec.toNat_or]; rfl
  _ = 2 ^ 12 * 7 + len12 v := (Nat.two_pow_add_eq_or_of_lt (len12_lt v) 7).symm
  _ = 0x7000 + v.toNat % 4096 := by rw [len12_eq_mod]

/-- The length getter does not see the flags nibble the setter writes (41_layers.md R161, R162). -/
theorem len12_setlen (v : U16) : len12 (setlen v) = v.toNat % 4096 := by
  rw [len12_eq_mod, setlen_toNat]
  omega

/-- Every length the setter writes carries the flags nibble 0x7 (41_layers.md R160). -/
theorem setlen_flags (v : U16) : (setlen v).extractLsb' 12 4 = 0x7#4 := by
  apply BitVec.eq_of_toNat_eq
  rw [BitVec.extractLsb'_toNat, setlen_toNat, Nat.shiftRight_eq_div_pow]
  change (0x7000 + v.toNat % 4096) / 4096 % 16 = 7
  omega

/-- Settles O23: the getter is a remainder, and the setter adds the flags nibble to that remainder. -/
theorem lengthFieldAccessors : Obligations.LengthFieldAccessors :=
  fun v => ⟨len12_setlen v, setlen_flags v, len12_eq_mod v, setlen_toNat v⟩

end Sys2Proof.Machine

/-! ### The packet family: the layers read back from their images, and the commands BUILD, ENCODE and DECODE -/

namespace Sys2Proof.Machine

/-! ### Reading a field back from a concatenation -/

/-- Bytes appended past a field do not change what is read there. -/
theorem rd16_append_left {B : List Byte} {k : Nat} (h : k + 1 < B.length) (C : List Byte) :
    rd16 (B ++ C) k = rd16 B k := by
  rw [rd16, List.getD_append _ _ _ _ (by omega), List.getD_append _ _ _ _ h, rd16]

theorem rd32_append_left {B : List Byte} {k : Nat} (h : k + 3 < B.length) (C : List Byte) :
    rd32 (B ++ C) k = rd32 B k := by
  rw [rd32, List.getD_append _ _ _ _ (by omega), List.getD_append _ _ _ _ (by omega),
    List.getD_append _ _ _ _ (by omega), List.getD_append _ _ _ _ h, rd32]

theorem rdstr_append_left {B : List Byte} {k m : Nat} (h : k + m ≤ B.length) (C : List Byte) :
    rdstr (B ++ C) k m = rdstr B k m := by
  rw [rdstr, List.drop_append_of_le_length (by omega), List.take_append_of_le_length (by simp; omega), rdstr]

/-- Past the first `k` bytes a concatenation reads as its second part. -/
theorem getD_append_of_length {A : List Byte} {k : Nat} (h : A.length = k) (C : List Byte) (i : Nat) :
    (A ++ C).getD (k + i) 0 = C.getD i 0 := by
  rw [List.getD_append_right _ _ _ _ (by omega), show k + i - A.length = i by omega]

/-- The field just written is read back whole: a byte, a big-endian number (40_marshaller.md R145), a string. -/
theorem getD_append_byte {A : List Byte} {k : Nat} (h : A.length = k) (b : Byte) : (A ++ [b]).getD k 0 = b :=
  getD_append_of_length h [b] 0

theorem rd16_append_be16 {A : List Byte} {k : Nat} (h : A.length = k) (v : U16) : rd16 (A ++ be16 v) k = v :=
  rd16_of_bytes (getD_append_of_length h _ 0) (getD_append_of_length h _ 1)

theorem rd32_append_be32 {A : List Byte} {k : Nat} (h : A.length = k) (v : U32) : rd32 (A ++ be32 v) k = v :=
  rd32_of_bytes (getD_append_of_length h _ 0) (getD_append_of_length h _ 1) (getD_append_of_length h _ 2)
    (getD_append_of_length h _ 3)

theorem rdstr_append_self {A S : List Byte} {k m : Nat} (h : A.length = k) (hS : S.length = m) :
    rdstr (A ++ S) k m = S := by
  rw [rdstr, List.drop_left' h, List.take_of_length_le hS.le]

/-! ### A layer is decoded from its image -/

/-- Decoding at offset 0 bytes that begin with a RootLayer's image gives that layer (41_layers.md R164, R170). -/
theorem rootDecode_rootImage_append (r : RootLayer) (C : List Byte) : rootDecode (rootImage r ++ C) = r := by
  simp (disch := simp) only [rootDecode, rootImage, rdid, id128, rd16_append_left, rd32_append_left,
    rdstr_append_left, rd16_append_be16, rd32_append_be32, rdstr_append_self, byteReg_toList]
  rw [rd16_append_left (by simp), bigEndianRoundTrip.1, rd16_append_be16 (be16_length _)]

theorem framingDecode_append_framingImage {A : List Byte} (hA : A.length = 38) (f : FramingLayer) (C : List Byte) :
    framingDecode (A ++ framingImage f ++ C) = f := by
  simp only [framingDecode, framingImage, ← List.append_assoc]
  simp (disch := simp [hA]) only [rd16_append_left, rd32_append_left, rdstr_append_left, List.getD_append,
    rd16_append_be16, rd32_append_be32, rdstr_append_self, getD_append_byte, byteReg_toList]

theorem dataDecode_append_dataHeaderImage {A : List Byte} (hA : A.length = 115) (d : DataLayer) (C : List Byte) :
    dataDecode (A ++ dataHeaderImage d ++ C) = d := by
  simp only [dataDecode, dataHeaderImage, ← List.append_assoc]
  simp (disch := simp [hA]) only [rd16_append_left, List.getD_append, rd16_append_be16, getD_append_byte]

/-! ### BUILD -/

theorem exec_build (s : State) : exec .build s = guarded (buildChecks s) s (buildWrites s) := rfl

/-- BUILD's checks are its contract (42_packet.md R200). -/
theorem buildChecks_ok_iff (s : State) : (∀ c ∈ buildChecks s, c.ok = true) ↔ BuildAccepts s := by
  simp [buildChecks]

theorem exec_build_of_accepts {s : State} (h : BuildAccepts s) : exec .build s = .next (finish (buildWrites s)) :=
  guarded_of_ok ((buildChecks_ok_iff s).mpr h)

/-- Outside its contract BUILD takes a fault (42_packet.md R201). -/
theorem exec_build_of_not_accepts {s : State} (h : ¬ BuildAccepts s) :
    ∃ code info, exec .build s = .next (takeFault code info s) := by
  obtain ⟨hok, -⟩ | ⟨c, -, -, -, hfault⟩ := guarded_cases (buildChecks s) s (buildWrites s)
  · exact absurd ((buildChecks_ok_iff s).mp hok) h
  · exact ⟨c.code, c.info, hfault⟩

@[simp] theorem buildWrites_data (s : State) : (buildWrites s).data = builtData s := rfl

/-- What BUILD accepts has at most 3985 slots (00_scope.md R7). -/
theorem slotCount_le {s : State} (hmax : s.params.maxSlots ≤ 3985) (h : BuildAccepts s) : s.slotCount ≤ 3985 := by
  obtain ⟨-, -, hslots, -⟩ := h
  exact hslots.trans hmax

/-! The lengths of a built packet (42_packet.md R202): no length passes 4095, so none is reduced modulo 4096. -/

theorem builtData_flen_toNat {s : State} (h : s.slotCount ≤ 3985) :
    (builtData s).flen.toNat = 0x7000 + 11 + s.slotCount := by
  rw [builtData, dataConstruct, setlen_toNat, BitVec.toNat_ofNat]
  omega

theorem builtData_count_toNat {s : State} (h : s.slotCount ≤ 3985) :
    (builtData s).count.toNat = s.slotCount + 1 := by
  rw [builtData, dataConstruct, BitVec.toNat_ofNat]
  omega

theorem builtFraming_flen_toNat {s : State} (h : s.slotCount ≤ 3985) :
    (builtFraming s).flen.toNat = 0x7000 + 88 + s.slotCount := by
  rw [builtFraming, framingConstruct, setlen_toNat, BitVec.toNat_ofNat, len12_eq_mod, builtData_flen_toNat h]
  omega

theorem len12_builtFraming_flen {s : State} (h : s.slotCount ≤ 3985) :
    len12 (builtFraming s).flen = 88 + s.slotCount := by
  rw [len12_eq_mod, builtFraming_flen_toNat h]
  omega

theorem builtRoot_flen_toNat {s : State} (h : s.slotCount ≤ 3985) :
    (builtRoot s).flen.toNat = 0x7000 + 110 + s.slotCount := by
  rw [builtRoot, rootConstruct, setlen_toNat, BitVec.toNat_ofNat, len12_builtFraming_flen h]
  omega

theorem len12_builtRoot_flen {s : State} (h : s.slotCount ≤ 3985) :
    len12 (builtRoot s).flen = 110 + s.slotCount := by
  rw [len12_eq_mod, builtRoot_flen_toNat h]
  omega

/-- The root length counts 22 bytes more than the framing length (41_layers.md R163). -/
theorem len12_builtRoot_eq_add {s : State} (h : s.slotCount ≤ 3985) :
    len12 (builtRoot s).flen = len12 (builtFraming s).flen + 22 := by
  rw [len12_builtRoot_flen h, len12_builtFraming_flen h]
  omega

theorem packetLength_builtFraming {s : State} (h : s.slotCount ≤ 3985) :
    packetLength (builtFraming s) = 126 + s.slotCount := by
  rw [packetLength, len12_builtFraming_flen h]
  omega

/-- The name BUILD stores is NAME_IN, cut or filled up with zeros to 64 bytes (42_packet.md R200, 40_marshaller.md R146). -/
theorem builtFraming_name_getElem (s : State) (k : Nat) (h : k < 64) :
    (builtFraming s).name[k] = if k < s.nameInLen then s.nameInAt k else 0x00 := by
  have hbyte : (builtFraming s).name[k] = s.sourceName.getD k 0 :=
    (byteReg_getElem 64 _ k h).trans (fixstr_getD s.sourceName h)
  rw [hbyte, State.sourceName]
  split
  next hin => rw [nameInRange_getD _ _ _ _ hin, Nat.zero_add]
  next hout => rw [List.getD_eq_default _ _ (by simpa using hout)]

/-- The packet BUILD leaves is one ENCODE accepts (42_packet.md R206). -/
theorem encodeAccepts_buildWrites {s : State} (hp : s.params.InRange) (h : BuildAccepts s) :
    EncodeAccepts (finish (buildWrites s)) := by
  have hN : s.slotCount ≤ 3985 := slotCount_le hp.1 h
  obtain ⟨-, hfit, -⟩ := hp
  obtain ⟨-, -, hslots, -⟩ := h
  refine ⟨rfl, ?_, ?_⟩
  · change packetLength (builtFraming s) ≤ s.params.pbufSize
    rw [packetLength_builtFraming hN]
    omega
  · change 125 + (builtData s).count.toNat ≤ packetLength (builtFraming s)
    rw [packetLength_builtFraming hN, builtData_count_toNat hN]
    omega

/-- Settles O25: BUILD stores the three constructed layers, whose lengths are known in closed form. -/
theorem buildLengthsInClosedForm : Obligations.BuildLengthsInClosedForm := by
  intro s t hmax haccepts hexec
  have hN : s.slotCount ≤ 3985 := slotCount_le hmax haccepts
  obtain rfl : finish (buildWrites s) = t := by
    simpa [exec_build_of_accepts haccepts] using hexec
  refine ⟨builtData_flen_toNat hN, builtFraming_flen_toNat hN, builtRoot_flen_toNat hN, builtData_count_toNat hN,
    packetLength_builtFraming hN, ?_⟩
  rw [finish_data, buildWrites_data, builtData_count_toNat hN]
  omega

/-- Settles O26: the contract holds and BUILD ends in its writes, or it fails and BUILD takes a fault. -/
theorem buildNeverLeavesMalformedPacket : Obligations.BuildNeverLeavesMalformedPacket := by
  intro s t hfault hexec
  by_cases haccepts : BuildAccepts s
  · obtain rfl : finish (buildWrites s) = t := by
      simpa [exec_build_of_accepts haccepts] using hexec
    exact .inr ⟨haccepts, hfault, rfl, rfl⟩
  · obtain ⟨code, info, htake⟩ := exec_build_of_not_accepts haccepts
    obtain rfl : takeFault code info s = t := by simpa [htake] using hexec
    exact .inl ⟨haccepts, rfl⟩

/-! ### ENCODE -/

theorem exec_encode (s : State) : exec .encode s = guarded (encodeChecks s) s (encodeWrites s) := rfl

theorem encodeChecks_ok_iff (s : State) : (∀ c ∈ encodeChecks s, c.ok = true) ↔ EncodeAccepts s := by
  simp [encodeChecks]

theorem exec_encode_of_accepts {s : State} (h : EncodeAccepts s) :
    exec .encode s = .next (finish (encodeWrites s)) :=
  guarded_of_ok ((encodeChecks_ok_iff s).mpr h)

/-- Whether ENCODE accepts depends on the held packet alone (30_encoding.md Table 30-2). -/
theorem SamePacket.encodeAccepts {s t : State} (h : SamePacket s t) (hs : EncodeAccepts s) : EncodeAccepts t := by
  obtain ⟨hvalid, -, hframing, hdata, -, hparams, -⟩ := h
  rw [EncodeAccepts, hvalid, hframing, hdata, hparams]
  exact hs

/-- The image fills the packet's length (42_packet.md R205). -/
theorem packetImage_length {s : State} (h : 125 + s.data.count.toNat ≤ packetLength s.framing) :
    (packetImage s).length = packetLength s.framing := by
  simp [packetImage, State.values]
  omega

/-! Decoding the image gives back what it was made of (42_packet.md R216). -/

/-- The image begins with the root layer's, and what follows may be cut anywhere past it. -/
theorem rootDecode_take_packetImage (s : State) {n : Nat} (h : 38 ≤ n) :
    rootDecode ((packetImage s).take n) = s.root := by
  simp only [packetImage, List.append_assoc]
  rw [List.take_append, List.take_of_length_le (by simpa using h), rootDecode_rootImage_append]

theorem rootDecode_packetImage (s : State) : rootDecode (packetImage s) = s.root := by
  simp only [packetImage, List.append_assoc, rootDecode_rootImage_append]

theorem framingDecode_packetImage (s : State) : framingDecode (packetImage s) = s.framing := by
  rw [packetImage, List.append_assoc, framingDecode_append_framingImage (rootImage_length _)]

theorem dataDecode_packetImage (s : State) : dataDecode (packetImage s) = s.data := by
  rw [packetImage, dataImage, ← List.append_assoc (rootImage s.root ++ framingImage s.framing), List.append_assoc,
    dataDecode_append_dataHeaderImage (by simp)]

theorem rdstr_packetImage (s : State) : rdstr (packetImage s) 125 s.data.count.toNat = s.values := by
  have hlen : s.values.length = s.data.count.toNat := pvRange_length _ _ _
  rw [packetImage, dataImage, ← List.append_assoc (rootImage s.root ++ framingImage s.framing),
    rdstr_append_left (by simp [hlen, ← Nat.add_assoc]), rdstr_append_self (by simp) hlen]

/-! What is read of PBUF after ENCODE. -/

theorem readRange_write_take (draw : Nat → Byte) (m : List Host.Cell) (bs : List Byte) {n : Nat} (h : n ≤ bs.length) :
    Memory.readRange draw (Memory.write m 0 bs) 0 n = bs.take n := by
  refine List.ext_getElem (by simpa using h) fun i hi _ => ?_
  have hin : i < bs.length := (show i < n by simpa using hi).trans_le h
  simp [Memory.readRange, Memory.read_write, hin]

theorem encodeWrites_bufLen (s : State) : (encodeWrites s).bufLen = packetLength s.framing := by
  have := len12_lt s.framing.flen
  change (BitVec.ofNat 16 (packetLength s.framing)).toNat = _
  rw [BitVec.toNat_ofNat, packetLength]
  omega

theorem encodeWrites_pbufRange {s : State} (h : EncodeAccepts s) {n : Nat} (hn : n ≤ packetLength s.framing) :
    (encodeWrites s).pbufRange 0 n = (packetImage s).take n := by
  obtain ⟨-, -, hcount⟩ := h
  exact readRange_write_take _ _ _ (by rwa [packetImage_length hcount])

/-- ENCODE leaves in PBUF[0..BUF_LEN) the packet's image (42_packet.md R205). -/
theorem encodeWrites_packetBytes {s : State} (h : EncodeAccepts s) : (encodeWrites s).packetBytes = packetImage s := by
  rw [State.packetBytes, encodeWrites_bufLen, encodeWrites_pbufRange h le_rfl]
  obtain ⟨-, -, hcount⟩ := h
  exact List.take_of_length_le (packetImage_length hcount).le

theorem be16_append (x y : Byte) : be16 (x ++ y) = [x, y] := by
  change [highByte (x ++ y), lowByte (x ++ y)] = [x, y]
  rw [highByte_append, lowByte_append]

/-- A 16-bit field below BUF_LEN is the big-endian pair of PBUF bytes (30_encoding.md R113). -/
theorem rd16_packetBytes {s : State} {k : Nat} (h : k + 1 < s.bufLen) : rd16 s.packetBytes k = s.wire16 k := by
  rw [rd16, State.packetBytes, pbufRange_getD _ _ _ _ (by omega), pbufRange_getD _ _ _ _ h, State.wire16,
    Nat.zero_add, Nat.zero_add]

/-- Settles O30: BUF_LEN is the closed form of the length, and the two bytes are those of D_COUNT, which DECODE would read
there. -/
theorem encodedLengthOfBuiltPacket : Obligations.EncodedLengthOfBuiltPacket := by
  intro s t u hp haccepts hbuild hencode
  have hN : s.slotCount ≤ 3985 := slotCount_le hp.1 haccepts
  have hE : EncodeAccepts (finish (buildWrites s)) := encodeAccepts_buildWrites hp haccepts
  obtain rfl : finish (buildWrites s) = t := by simpa [exec_build_of_accepts haccepts] using hbuild
  obtain rfl : finish (encodeWrites (finish (buildWrites s))) = u := by
    simpa [exec_encode_of_accepts hE] using hencode
  have hlen : (encodeWrites (finish (buildWrites s))).bufLen = 126 + s.slotCount :=
    (encodeWrites_bufLen _).trans (packetLength_builtFraming hN)
  refine ⟨hlen.trans (by omega), ?_⟩
  have hcount : (encodeWrites (finish (buildWrites s))).wire16 123 = BitVec.ofNat 16 (s.slotCount + 1) := calc
    (encodeWrites (finish (buildWrites s))).wire16 123
      = rd16 (packetImage (finish (buildWrites s))) 123 := by
        rw [← encodeWrites_packetBytes hE, rd16_packetBytes (by omega)]
    _ = (dataDecode (packetImage (finish (buildWrites s)))).count := rfl
    _ = BitVec.ofNat 16 (s.slotCount + 1) := by rw [dataDecode_packetImage]; rfl
  rw [← hcount, State.wire16, be16_append]
  rfl

/-- Settles O31: in the invariant the packet of a VALID state fits its lengths, which is all that ENCODE checks. -/
theorem encodeRangeCheckNeverFails : Obligations.EncodeRangeCheckNeverFails := by
  intro s t hinv hvalid hexec
  obtain ⟨hcount, hsize, -⟩ := hinv.packet_fits hvalid
  obtain rfl : finish (encodeWrites s) = t := by
    simpa [exec_encode_of_accepts ⟨hvalid, hsize, hcount⟩] using hexec
  exact ⟨rfl, rfl⟩

/-! ### DECODE -/

theorem exec_decode (s : State) : exec .decode s = guarded (decodeChecks s) s (decodeWrites s) := rfl

theorem sizeMalformed_eq_true_iff (n : Nat) : sizeMalformed n = true ↔ n < 125 := by simp [sizeMalformed]
theorem sizeMalformed_eq_false_iff (n : Nat) : sizeMalformed n = false ↔ 125 ≤ n := by simp [sizeMalformed]

theorem rootMalformed_eq_true_iff (r : RootLayer) (n : Nat) : rootMalformed r n = true ↔ len12 r.flen ≠ n - 16 := by
  simp [rootMalformed]
theorem rootMalformed_eq_false_iff (r : RootLayer) (n : Nat) : rootMalformed r n = false ↔ len12 r.flen = n - 16 := by
  simp [rootMalformed]

theorem framingMalformed_eq_false_iff (f : FramingLayer) (n : Nat) :
    framingMalformed f n = false ↔ len12 f.flen = n - 38 := by
  simp [framingMalformed]

/-! The checks and the writes of DECODE at each stage (42_packet.md R210 (a) to (d)). -/

section Stages

variable {s : State}

/-- A buffer malformed at any stage is not asked for its payload (60_exceptions.md R260). -/
theorem decodeChecks_of_malformed (h : sizeMalformed s.bufLen = true ∨
    rootMalformed (rootDecode s.packetBytes) s.bufLen = true ∨
    framingMalformed (framingDecode s.packetBytes) s.bufLen = true) : decodeChecks s = [checkBufLen s] := by
  rw [decodeChecks, if_pos (by simpa [or_assoc] using h)]

theorem decodeChecks_of_good (hsize : sizeMalformed s.bufLen = false)
    (hroot : rootMalformed (rootDecode s.packetBytes) s.bufLen = false)
    (hframing : framingMalformed (framingDecode s.packetBytes) s.bufLen = false) :
    decodeChecks s = [checkBufLen s, checkPayload s.packetBytes s.bufLen] := by
  simp [decodeChecks, hsize, hroot, hframing]

theorem decodeWrites_of_size (hsize : sizeMalformed s.bufLen = true) :
    decodeWrites s = setMalformed malSize s := by
  simp [decodeWrites, hsize]

theorem decodeWrites_of_root (hsize : sizeMalformed s.bufLen = false)
    (hroot : rootMalformed (rootDecode s.packetBytes) s.bufLen = true) :
    decodeWrites s = setMalformed malRoot { s with root := rootDecode s.packetBytes } := by
  simp [decodeWrites, hsize, hroot]

theorem decodeWrites_of_framing (hsize : sizeMalformed s.bufLen = false)
    (hroot : rootMalformed (rootDecode s.packetBytes) s.bufLen = false)
    (hframing : framingMalformed (framingDecode s.packetBytes) s.bufLen = true) :
    decodeWrites s = setMalformed malFraming
      { s with root := rootDecode s.packetBytes, framing := framingDecode s.packetBytes } := by
  simp [decodeWrites, hsize, hroot, hframing]

theorem decodeWrites_of_good (hsize : sizeMalformed s.bufLen = false)
    (hroot : rootMalformed (rootDecode s.packetBytes) s.bufLen = false)
    (hframing : framingMalformed (framingDecode s.packetBytes) s.bufLen = false) :
    decodeWrites s = setWellFormed (writePv 0 (rdstr s.packetBytes 125 (dataDecode s.packetBytes).count.toNat)
      { s with root := rootDecode s.packetBytes, framing := framingDecode s.packetBytes,
               data := dataDecode s.packetBytes }) := by
  simp [decodeWrites, hsize, hroot, hframing]

end Stages

/-- Settles O40: a DECODE that leaves VALID = 1 reached the last stage, so both length checks and both range checks held,
and a 12-bit length bounds the buffer. -/
theorem boundsAfterSuccessfulDecode : Obligations.BoundsAfterSuccessfulDecode := by
  intro s t _ hexec hfault hvalid
  obtain ⟨hok, hdone⟩ | ⟨c, -, -, -, htake⟩ := guarded_cases (decodeChecks s) s (decodeWrites s)
  case inr =>
    obtain rfl : takeFault c.code c.info s = t := by simpa [exec_decode, htake] using hexec
    cases hfault
  obtain rfl : finish (decodeWrites s) = t := by simpa [exec_decode, hdone] using hexec
  obtain ⟨-, hw⟩ | ⟨-, -, hw⟩ | ⟨-, -, -, hw⟩ | ⟨hsize, hroot, hframing, hw⟩ := decodeWrites_cases s
  case inr.inr.inr =>
    rw [decodeChecks_of_good hsize hroot hframing] at hok
    obtain ⟨hcap, hpayload⟩ : s.bufLen ≤ s.params.pbufSize ∧
        125 + (dataDecode s.packetBytes).count.toNat ≤ s.bufLen := by simpa using hok
    rw [sizeMalformed_eq_false_iff] at hsize
    rw [rootMalformed_eq_false_iff] at hroot
    rw [framingMalformed_eq_false_iff] at hframing
    have hlen := len12_lt (rootDecode s.packetBytes).flen
    rw [hw]
    refine ⟨hroot, hframing, hsize, ?_, by omega, rfl, by omega⟩
    change (dataDecode s.packetBytes).count.toNat ≤ s.bufLen - 125
    omega
  all_goals
    rw [hw] at hvalid
    cases hvalid

/-! ### DECODE again -/

theorem SameBuffer.bufLen_eq {s t : State} (h : SameBuffer s t) : t.bufLen = s.bufLen := by
  obtain ⟨-, hlen, -⟩ := h
  exact congrArg BitVec.toNat hlen

theorem SameBuffer.packetBytes_eq {s t : State} (h : SameBuffer s t) : t.packetBytes = s.packetBytes := by
  have ⟨hpbuf, _, _, hresets⟩ := h
  rw [State.packetBytes, State.pbufRange, hpbuf, hresets, h.bufLen_eq]
  rfl

/-- The checks of DECODE look at the buffer alone (30_encoding.md Table 30-2). -/
theorem SameBuffer.decodeChecks_eq {s t : State} (h : SameBuffer s t) : decodeChecks t = decodeChecks s := by
  have ⟨_, _, hparams, _⟩ := h
  rw [decodeChecks, checkBufLen, h.bufLen_eq, h.packetBytes_eq, hparams]
  rfl

/-- DECODE leaves the buffer as it is (42_packet.md R215). -/
theorem sameBuffer_decodeWrites (s : State) : SameBuffer s (finish (decodeWrites s)) := by
  obtain ⟨-, hw⟩ | ⟨-, -, hw⟩ | ⟨-, -, -, hw⟩ | ⟨-, -, -, hw⟩ := decodeWrites_cases s <;>
    rw [hw] <;> exact ⟨rfl, rfl, rfl, rfl⟩

/-- The writes of a second DECODE are those already made: it goes to the same stage and finds the same bytes. -/
theorem finish_decodeWrites_idem (s : State) :
    finish (decodeWrites (finish (decodeWrites s))) = finish (decodeWrites s) := by
  have hlen := (sameBuffer_decodeWrites s).bufLen_eq
  have hbytes := (sameBuffer_decodeWrites s).packetBytes_eq
  obtain ⟨hsize, hw⟩ | ⟨hsize, hroot, hw⟩ | ⟨hsize, hroot, hframing, hw⟩ | ⟨hsize, hroot, hframing, hw⟩ :=
    decodeWrites_cases s
  · rw [decodeWrites_of_size (by rwa [hlen]), hw]
    rfl
  · rw [decodeWrites_of_root (by rwa [hlen]) (by rwa [hlen, hbytes]), hbytes, hw]
    rfl
  · rw [decodeWrites_of_framing (by rwa [hlen]) (by rwa [hlen, hbytes]) (by rwa [hlen, hbytes]), hbytes, hw]
    rfl
  · rw [decodeWrites_of_good (by rwa [hlen]) (by rwa [hlen, hbytes]) (by rwa [hlen, hbytes]), hbytes, hw]
    simp [finish, setWellFormed, writePv, Memory.write_write]

/-- Settles O41: a DECODE that faults changes none of what its checks read, and one that completes repeats its writes. -/
theorem secondDecodeGivesTheSameResult : Obligations.SecondDecodeGivesTheSameResult := by
  intro s t hexec
  obtain ⟨hok, hdone⟩ | ⟨c, hfailed, -, -, htake⟩ := guarded_cases (decodeChecks s) s (decodeWrites s)
  · obtain rfl : finish (decodeWrites s) = t := by simpa [exec_decode, hdone] using hexec
    have hsame := sameBuffer_decodeWrites s
    have ⟨hpbuf, hlen, _⟩ := hsame
    refine ⟨hpbuf, hlen, ?_⟩
    rw [exec_decode, guarded_of_ok (by rwa [hsame.decodeChecks_eq]), finish_decodeWrites_idem]
  · obtain rfl : takeFault c.code c.info s = t := by simpa [exec_decode, htake] using hexec
    have hsame : SameBuffer s (takeFault c.code c.info s) := ⟨rfl, rfl, rfl, rfl⟩
    refine ⟨rfl, rfl, ?_⟩
    rw [exec_decode, guarded_of_failed (by rwa [hsame.decodeChecks_eq])]
    rfl

/-! ### DECODE of an encoded packet -/

theorem exec_decode_of_size {s : State} (hcap : s.bufLen ≤ s.params.pbufSize) (hsize : sizeMalformed s.bufLen = true) :
    exec .decode s = .next (finish (setMalformed malSize s)) := by
  rw [exec_decode, decodeChecks_of_malformed (.inl hsize), decodeWrites_of_size hsize]
  exact guarded_of_ok (by simpa using hcap)

theorem exec_decode_of_root {s : State} (hcap : s.bufLen ≤ s.params.pbufSize)
    (hsize : sizeMalformed s.bufLen = false) (hroot : rootMalformed (rootDecode s.packetBytes) s.bufLen = true) :
    exec .decode s = .next (finish (setMalformed malRoot { s with root := rootDecode s.packetBytes })) := by
  rw [exec_decode, decodeChecks_of_malformed (.inr (.inl hroot)), decodeWrites_of_root hsize hroot]
  exact guarded_of_ok (by simpa using hcap)

/-- DECODE inverts ENCODE: of a buffer that holds the image of an accepted packet, whose root length counts its framing
length (41_layers.md R163), it gives back that packet (42_packet.md R216). -/
theorem exec_decode_of_packetImage {s v : State} (haccepts : EncodeAccepts s)
    (hroot : len12 s.root.flen = len12 s.framing.flen + 22) (hlen : v.bufLen = packetLength s.framing)
    (hbytes : v.packetBytes = packetImage s) (hparams : v.params = s.params) :
    exec .decode v = .next (finish (setWellFormed (writePv 0 s.values
      { v with root := s.root, framing := s.framing, data := s.data }))) := by
  obtain ⟨-, hcap, hcount⟩ := haccepts
  have hL : packetLength s.framing = 38 + len12 s.framing.flen := rfl
  have hsizeOk : sizeMalformed v.bufLen = false := by rw [sizeMalformed_eq_false_iff]; omega
  have hrootOk : rootMalformed (rootDecode v.packetBytes) v.bufLen = false := by
    rw [rootMalformed_eq_false_iff, hbytes, rootDecode_packetImage]; omega
  have hframingOk : framingMalformed (framingDecode v.packetBytes) v.bufLen = false := by
    rw [framingMalformed_eq_false_iff, hbytes, framingDecode_packetImage]; omega
  have hok : ∀ c ∈ decodeChecks v, c.ok = true := by
    rw [decodeChecks_of_good hsizeOk hrootOk hframingOk, hbytes]
    simpa [dataDecode_packetImage, hlen, hparams] using And.intro hcap hcount
  rw [exec_decode, guarded_of_ok hok, decodeWrites_of_good hsizeOk hrootOk hframingOk, hbytes, rootDecode_packetImage,
    framingDecode_packetImage, dataDecode_packetImage, rdstr_packetImage]

/-- Cut short anywhere, the image of such a packet is malformed: below 125 bytes at SIZE, and else at ROOT, for its root
layer is whole and counts the bytes before the cut (42_packet.md R217). -/
theorem exec_decode_of_truncated {s v : State} {n : Nat} (hroot : len12 s.root.flen = len12 s.framing.flen + 22)
    (hn : n < packetLength s.framing) (hlen : v.bufLen = n) (hbytes : v.packetBytes = (packetImage s).take n)
    (hcap : v.bufLen ≤ v.params.pbufSize) :
    ∃ w, exec .decode v = .next w ∧ w.status.malformed = true ∧ w.status.valid = false ∧
      w.malInfo.stage = if n < 125 then .size else .root := by
  obtain hshort | hlong := lt_or_ge n 125
  · rw [if_pos hshort]
    exact ⟨_, exec_decode_of_size hcap (by rwa [hlen, sizeMalformed_eq_true_iff]), rfl, rfl, rfl⟩
  · rw [if_neg (Nat.not_lt.mpr hlong)]
    have hL : packetLength s.framing = 38 + len12 s.framing.flen := rfl
    have hrootMal : rootMalformed (rootDecode v.packetBytes) v.bufLen = true := by
      rw [rootMalformed_eq_true_iff, hbytes, rootDecode_take_packetImage s (by omega)]
      omega
    exact ⟨_, exec_decode_of_root hcap (by rwa [hlen, sizeMalformed_eq_false_iff]) hrootMal, rfl, rfl, rfl⟩

theorem SamePacket.pvAt_eq {s t : State} (h : SamePacket s t) : t.pvAt = s.pvAt := by
  obtain ⟨-, -, -, -, hpv, -, hresets⟩ := h
  funext i
  rw [State.pvAt, hpv, hresets]
  rfl

/-- Storing a packet's own values leaves them in PV[0..D_COUNT). -/
theorem writePv_values_pvAt (s v : State) {i : Nat} (h : i < s.data.count.toNat) :
    (writePv 0 s.values v).pvAt i = s.pvAt i := by
  have hin : 0 ≤ i ∧ i < 0 + s.values.length := by simpa [State.values] using h
  rw [writePv_pvAt, if_pos hin, State.values, pvRange_getD _ _ _ _ (by omega), Nat.zero_add, Nat.sub_zero]

/-- Settles O43: BUILD's packet is one ENCODE accepts, and DECODE inverts ENCODE on it. -/
theorem buildEncodeDecodeRoundTrip : Obligations.BuildEncodeDecodeRoundTrip := by
  intro s hp haccepts
  have hN : s.slotCount ≤ 3985 := slotCount_le hp.1 haccepts
  refine ⟨_, exec_build_of_accepts haccepts, fun t' ht => ?_⟩
  have hE : EncodeAccepts t' := ht.encodeAccepts (encodeAccepts_buildWrites hp haccepts)
  refine ⟨_, exec_encode_of_accepts hE, fun u' hu => ?_⟩
  have hlen : u'.bufLen = packetLength t'.framing := hu.bufLen_eq.trans (encodeWrites_bufLen t')
  have hbytes : u'.packetBytes = packetImage t' := hu.packetBytes_eq.trans (encodeWrites_packetBytes hE)
  obtain ⟨-, -, hparams, -⟩ := hu
  have ⟨_, hroot, hframing, hdata, _⟩ := ht
  have hcounts : len12 t'.root.flen = len12 t'.framing.flen + 22 := by
    rw [hroot, hframing]
    exact len12_builtRoot_eq_add hN
  refine ⟨_, exec_decode_of_packetImage hE hcounts hlen hbytes hparams, rfl, rfl, rfl, hroot, hframing, hdata,
    fun i hi => ?_, fun k hk => ?_⟩
  · have hin : i < t'.data.count.toNat := by
      rw [hdata]
      exact hi.trans_eq (builtData_count_toNat hN).symm
    exact (writePv_values_pvAt t' _ hin).trans (congrFun ht.pvAt_eq i)
  · rw [← builtFraming_name_getElem s k hk]
    exact congrArg (fun f : FramingLayer => f.name[k]) hframing

/-- Settles O44: a built and encoded packet is one that is malformed when cut short. -/
theorem truncatedPacketIsMalformed : Obligations.TruncatedPacketIsMalformed := by
  intro s k hp haccepts hk hkN
  have hN : s.slotCount ≤ 3985 := slotCount_le hp.1 haccepts
  have hE : EncodeAccepts (finish (buildWrites s)) := encodeAccepts_buildWrites hp haccepts
  have hL : packetLength (finish (buildWrites s)).framing = 126 + s.slotCount := packetLength_builtFraming hN
  have ⟨_, hcap, _⟩ := hE
  generalize hn : 126 + s.slotCount - k = n
  have hlen : (BitVec.ofNat 16 n).toNat = n := by
    rw [BitVec.toNat_ofNat]
    omega
  have hbytes : (encodeWrites (finish (buildWrites s))).pbufRange 0 (BitVec.ofNat 16 n).toNat =
      (packetImage (finish (buildWrites s))).take n := by
    rw [hlen, encodeWrites_pbufRange hE (by omega)]
  obtain ⟨w, hw⟩ := exec_decode_of_truncated (len12_builtRoot_eq_add hN) (by omega)
    (v := { finish (encodeWrites (finish (buildWrites s))) with
      args := { (finish (encodeWrites (finish (buildWrites s)))).args with bufLen := BitVec.ofNat 16 n } })
    hlen hbytes (hlen.trans_le (le_trans (by omega) hcap))
  exact ⟨_, _, w, exec_build_of_accepts haccepts, exec_encode_of_accepts hE, hw⟩

end Sys2Proof.Machine

/-! ### The fast path family: what CMPSLOTS compares, and PATCH against a fresh BUILD and ENCODE -/

namespace Sys2Proof.Machine

/-! ### CMPSLOTS -/

theorem exec_cmpslots (s : State) :
    exec .cmpslots s = guarded (cmpslotsChecks s) s (setCmpEq (slotsEqual s) s) := rfl

/-- CMPSLOTS's checks are the ranges it shares with PATCH (43_fast_path.md R230). -/
theorem cmpslotsChecks_ok_iff (s : State) : (∀ c ∈ cmpslotsChecks s, c.ok = true) ↔ SlotsAccept s := by
  simp [cmpslotsChecks]

theorem exec_cmpslots_of_accepts {s : State} (h : SlotsAccept s) :
    exec .cmpslots s = .next (finish (setCmpEq (slotsEqual s) s)) :=
  guarded_of_ok ((cmpslotsChecks_ok_iff s).mpr h)

/-- The result bit compares two byte ranges of one length, so it compares them byte by byte (43_fast_path.md R233). -/
theorem slotsEqual_eq_true_iff (s : State) :
    slotsEqual s = true ↔ ∀ i, i < s.slotCount → s.pbufAt (126 + i) = s.vbufAt (s.srcOffset + i) := calc
  slotsEqual s = true ↔ s.packetSlots = s.slotValues := beq_iff_eq
  _ ↔ ∀ i ∈ List.range s.slotCount, s.pbufAt (126 + i) = s.vbufAt (s.srcOffset + i) := List.map_inj_left
  _ ↔ ∀ i, i < s.slotCount → s.pbufAt (126 + i) = s.vbufAt (s.srcOffset + i) := by simp only [List.mem_range]

/-- Settles O45: within the ranges CMPSLOTS ends in its one write, and the bit written compares every slot. -/
theorem cmpslotsComparesEverySlot : Obligations.CmpslotsComparesEverySlot :=
  fun s haccepts => ⟨slotsEqual s, exec_cmpslots_of_accepts haccepts, slotsEqual_eq_true_iff s⟩

/-! ### PATCH -/

theorem exec_patch (s : State) : exec .patch s = guarded (patchChecks s) s (patchWrites s) := rfl

/-- PATCH's checks are CMPSLOTS's ranges and the sequence byte's (43_fast_path.md R231). -/
theorem patchChecks_ok_iff (s : State) : (∀ c ∈ patchChecks s, c.ok = true) ↔ SlotsAccept s ∧ 112 ≤ s.bufLen := by
  simp [patchChecks, and_assoc, and_comm, and_left_comm]

theorem exec_patch_of_accepts {s : State} (h : SlotsAccept s) (hseq : 112 ≤ s.bufLen) :
    exec .patch s = .next (finish (patchWrites s)) :=
  guarded_of_ok ((patchChecks_ok_iff s).mpr ⟨h, hseq⟩)

@[simp] theorem slotValues_length (s : State) : s.slotValues.length = s.slotCount := vbufRange_length _ _ _

/-- PBUF after PATCH: the sequence number at 111, the slots from 126 on, every other byte as before
(43_fast_path.md R231). -/
theorem patchWrites_pbufAt (s : State) (i : Nat) :
    (patchWrites s).pbufAt i =
      if i = 111 then s.args.seq
      else if 126 ≤ i ∧ i < 126 + s.slotCount then s.slotValues.getD (i - 126) 0 else s.pbufAt i := by
  rw [patchWrites, writePbuf_pbufAt, writePbuf_pbufAt, slotValues_length]
  by_cases hseq : i = 111
  · simp [hseq]
  · rw [if_neg (by simp; omega), if_neg hseq]

/-! ### The image of a built packet (42_packet.md R200, R205): 126 bytes, then the slots -/

/-- What a built packet holds below its slots: the layers' headers and the start code (30_encoding.md Table 30-3). -/
def builtHead (s : State) : List Byte :=
  rootImage (builtRoot s) ++ framingImage (builtFraming s) ++ dataHeaderImage (builtData s) ++ [0x00]

@[simp] theorem builtHead_length (s : State) : (builtHead s).length = 126 := by simp [builtHead]

/-- PV[0..D_COUNT) after BUILD is what BUILD stored there (41_layers.md R169). -/
theorem buildWrites_values {s : State} (h : s.slotCount ≤ 3985) :
    (finish (buildWrites s)).values = propertyValues s.slotValues := by
  have hlen : (propertyValues s.slotValues).length = s.slotCount + 1 := by simp [propertyValues]
  rw [State.values, finish_data, buildWrites_data, builtData_count_toNat h]
  exact (readRange_write_take _ _ _ hlen.ge).trans (List.take_of_length_le hlen.le)

/-- The length of a built packet leaves no room for zeros after the slots (42_packet.md R202). -/
theorem packetImage_buildWrites {s : State} (h : s.slotCount ≤ 3985) :
    packetImage (finish (buildWrites s)) = builtHead s ++ s.slotValues := by
  have hroom : packetLength (builtFraming s) - (125 + (builtData s).count.toNat) = 0 := by
    rw [packetLength_builtFraming h, builtData_count_toNat h]
    omega
  rw [packetImage, buildWrites_values h]
  change rootImage (builtRoot s) ++ framingImage (builtFraming s) ++
    dataImage (builtData s) (propertyValues s.slotValues) ++
    zeros (packetLength (builtFraming s) - (125 + (builtData s).count.toNat)) = _
  rw [hroom]
  simp [builtHead, dataImage, propertyValues]

/-- PBUF[0..BUF_LEN) after ENCODE, byte by byte. -/
theorem encodeWrites_pbufAt {s : State} (h : EncodeAccepts s) {i : Nat} (hi : i < packetLength s.framing) :
    (encodeWrites s).pbufAt i = (packetImage s).getD i 0 := by
  obtain ⟨-, -, hcount⟩ := h
  exact (writePbuf_pbufAt 0 _ _ i).trans (if_pos (by rw [packetImage_length hcount]; omega))

/-- PBUF[0..BUF_LEN) after BUILD and ENCODE: the head, then the slots. -/
theorem encodeWrites_buildWrites_pbufAt {s : State} (hp : s.params.InRange) (h : BuildAccepts s) {i : Nat}
    (hi : i < 126 + s.slotCount) :
    (encodeWrites (finish (buildWrites s))).pbufAt i = (builtHead s ++ s.slotValues).getD i 0 := by
  have hN : s.slotCount ≤ 3985 := slotCount_le hp.1 h
  rw [encodeWrites_pbufAt (encodeAccepts_buildWrites hp h) (hi.trans_eq (packetLength_builtFraming hN).symm),
    packetImage_buildWrites hN]

/-! ### PATCH of a built packet (43_fast_path.md R232) -/

/-- The sequence number is byte 73 of the FramingLayer, and no other byte depends on it (41_layers.md R165). -/
theorem framingImage_with_seq (f : FramingLayer) (q : Byte) :
    framingImage { f with seq := q } = (framingImage f).set 73 q := by
  simp [framingImage, List.set_append]

/-! What new slot values and a new sequence number change, and what they leave. -/

section NewSlots

variable (vbuf : List Host.Cell) (vbufLen srcOffset : U16) (seq : Byte) (s : State)

@[simp] theorem withNewSlots_seq : (withNewSlots vbuf vbufLen srcOffset seq s).args.seq = seq := rfl
@[simp] theorem withNewSlots_pbufAt : (withNewSlots vbuf vbufLen srcOffset seq s).pbufAt = s.pbufAt := rfl

/-- BUILD and ENCODE write no byte of VBUF, so new slot values are the same bytes before and after them
(30_encoding.md Table 30-2). -/
theorem slotValues_withNewSlots_encodeWrites :
    (withNewSlots vbuf vbufLen srcOffset seq (finish (encodeWrites (finish (buildWrites s))))).slotValues =
      (withNewSlots vbuf vbufLen srcOffset seq s).slotValues := rfl

/-- Of the head they change one byte, the sequence number at 38 + 73 (43_fast_path.md R232). -/
theorem builtHead_withNewSlots :
    builtHead (withNewSlots vbuf vbufLen srcOffset seq s) = (builtHead s).set 111 seq := by
  have hframing : builtFraming (withNewSlots vbuf vbufLen srcOffset seq s) = { builtFraming s with seq := seq } := rfl
  change rootImage (builtRoot s) ++ framingImage (builtFraming (withNewSlots vbuf vbufLen srcOffset seq s)) ++
    dataHeaderImage (builtData s) ++ [0x00] = _
  rw [hframing, framingImage_with_seq]
  simp [builtHead]

variable {vbuf vbufLen srcOffset seq s}

/-- Where BUILD accepts the old and the new inputs, the encoded packet and the new slots are in PATCH's ranges
(43_fast_path.md R231). -/
theorem slotsAccept_withNewSlots (hp : s.params.InRange) (h : BuildAccepts s)
    (h' : BuildAccepts (withNewSlots vbuf vbufLen srcOffset seq s))
    (hlen : (encodeWrites (finish (buildWrites s))).bufLen = 126 + s.slotCount) :
    SlotsAccept (withNewSlots vbuf vbufLen srcOffset seq (finish (encodeWrites (finish (buildWrites s))))) := by
  obtain ⟨-, hroom, -⟩ := hp
  obtain ⟨-, -, hmax, -⟩ := h
  obtain ⟨hvbuf, -, -, hvalues⟩ := h'
  have hcap : 126 + s.slotCount ≤ s.params.pbufSize := by omega
  exact ⟨hlen.trans_le hcap, hvbuf, .inr hlen.ge, hvalues⟩

/-- Byte by byte, PATCH turns the packet of the old inputs into the packet of the new ones: below the slots both have the
old head's bytes but the sequence number's, and the slots both take from VBUF. -/
theorem patchWrites_pbufAt_eq_fresh (hp : s.params.InRange) (h : BuildAccepts s)
    (h' : BuildAccepts (withNewSlots vbuf vbufLen srcOffset seq s)) {i : Nat} (hi : i < 126 + s.slotCount) :
    (patchWrites (withNewSlots vbuf vbufLen srcOffset seq (finish (encodeWrites (finish (buildWrites s)))))).pbufAt i =
      (encodeWrites (finish (buildWrites (withNewSlots vbuf vbufLen srcOffset seq s)))).pbufAt i := by
  have hold := encodeWrites_buildWrites_pbufAt hp h hi
  have hfresh := encodeWrites_buildWrites_pbufAt (s := withNewSlots vbuf vbufLen srcOffset seq s) hp h' hi
  rw [builtHead_withNewSlots] at hfresh
  rw [hfresh, patchWrites_pbufAt, withNewSlots_seq, withNewSlots_pbufAt, finish_pbufAt, hold,
    slotValues_withNewSlots_encodeWrites]
  obtain hhead | hslot := lt_or_ge i 126
  · rw [List.getD_append _ _ _ _ (by simpa using hhead), List.getD_append _ _ _ _ (by simpa using hhead)]
    by_cases hseq : i = 111
    · simp [hseq, List.getD_eq_getElem?_getD]
    · rw [if_neg hseq, if_neg (by omega), List.getD_eq_getElem?_getD, List.getD_eq_getElem?_getD,
        List.getElem?_set_ne (Ne.symm hseq)]
  · rw [if_neg (by omega), if_pos ⟨hslot, hi⟩, List.getD_append_right _ _ _ _ (by simpa using hslot),
      List.length_set, builtHead_length]

end NewSlots

/-- Settles O49: a fresh ENCODE's bytes are the old ones but for byte 111 and the slots, which are what PATCH writes. -/
theorem patchEqualsFreshEncode : Obligations.PatchEqualsFreshEncode := by
  intro s vbuf vbufLen srcOffset seq hp haccepts haccepts'
  have hlen : (encodeWrites (finish (buildWrites s))).bufLen = 126 + s.slotCount :=
    (encodeWrites_bufLen _).trans (packetLength_builtFraming (slotCount_le hp.1 haccepts))
  have hseq : 112 ≤ (encodeWrites (finish (buildWrites s))).bufLen := by omega
  have hE' : EncodeAccepts (finish (buildWrites (withNewSlots vbuf vbufLen srcOffset seq s))) :=
    encodeAccepts_buildWrites hp haccepts'
  exact ⟨_, _, _, _, _, exec_build_of_accepts haccepts, exec_encode_of_accepts (encodeAccepts_buildWrites hp haccepts),
    exec_patch_of_accepts (slotsAccept_withNewSlots hp haccepts haccepts' hlen) hseq,
    exec_build_of_accepts haccepts', exec_encode_of_accepts hE', rfl, rfl, hlen,
    fun _ hi => patchWrites_pbufAt_eq_fresh hp haccepts haccepts' hi⟩

end Sys2Proof.Machine

/-! ### The exceptions family: acceptance, the idle block and the fault state -/

namespace Sys2Proof.Machine

/-! ### Acceptance -/

/-- Drawing a delay takes no event from outside (assumption log 5). -/
@[simp] theorem nextDelay_inputs (h : HostSide) : (nextDelay h).inputs = h.inputs := by
  unfold nextDelay
  split <;> rfl

/-- Drawing a delay returns no byte to the host (assumption log 5). -/
@[simp] theorem nextDelay_reads (h : HostSide) : (nextDelay h).reads = h.reads := by
  unfold nextDelay
  split <;> rfl

/-- Settles O6: the step is `accept`, whose host side differs from the one before by the event taken and the delay drawn. -/
theorem acceptLatchesPendingAndRaisesBusy : Obligations.AcceptLatchesPendingAndRaisesBusy :=
  fun s _ rest hidle hfault hin => ⟨nextDelay (popInput rest s).host, step_of_cmd_write hidle hfault hin,
    nextDelay_inputs _, nextDelay_reads _⟩

/-! ### What one event does to an idle block -/

/-- An idle write is an accepted command, or it leaves STATUS and the fault records alone: the other regions of
20_memory.md Table 20-1 hold no state of the exceptions chapter. -/
theorem writeIdle_accepts_or_keeps (a : Addr) (v : Byte) (s : State) :
    (a = 0x0000 ∧ s.status.fault = false ∧ writeIdle a v s = accept v s) ∨
    ((writeIdle a v s).status = s.status ∧ (writeIdle a v s).faultRec = s.faultRec) := by
  obtain ⟨ha, hw⟩ | ⟨-, -, hw⟩ | ⟨-, -, -, hw⟩ | ⟨-, -, -, hw⟩ | ⟨-, -, -, hw⟩ | ⟨-, -, -, -, hw⟩ := writeIdle_cases a v s
  case inl =>
    cases hfault : s.status.fault with
    | true => exact .inr (by simp [hw, writeCmd_of_fault v hfault])
    | false => exact .inl ⟨BitVec.eq_of_toNat_eq ha, rfl, hw.trans (writeCmd_of_no_fault v hfault)⟩
  all_goals exact .inr (by simp [hw])

/-- With no event to come an idle block rests (60_exceptions.md R268). -/
theorem step_of_no_input {s : State} (hidle : s.status.busy = false) (hin : s.host.inputs = []) : step s = .next s := by
  simp [step, blockTurn_of_idle hidle, hin]

/-- What one step can do to an idle block's STATUS and fault records: reset them, accept a command, or nothing. -/
theorem step_cases_of_idle {s t : State} (hidle : s.status.busy = false) (hstep : step s = .next t) :
    (∃ rest, s.host.inputs = .reset :: rest ∧ t = applyReset (popInput rest s)) ∨
    (∃ b rest, s.host.inputs = .write 0x0000 b :: rest ∧ s.status.fault = false ∧ t = accept b (popInput rest s)) ∨
    (t.status = s.status ∧ t.faultRec = s.faultRec) := by
  cases hin : s.host.inputs with
  | nil =>
    cases (step_of_no_input hidle hin).symm.trans hstep
    exact .inr (.inr ⟨rfl, rfl⟩)
  | cons op rest =>
    cases (step_of_input (blockTurn_of_idle hidle) hin).symm.trans hstep
    cases op with
    | write a v =>
      have hwrite : hostTurn (.write a v) rest s = writeIdle a v (popInput rest s) := hostWrite_of_idle a v hidle
      obtain ⟨rfl, hfault, haccept⟩ | hkeeps := writeIdle_accepts_or_keeps a v (popInput rest s)
      · exact .inr (.inl ⟨v, rest, rfl, hfault, hwrite.trans haccept⟩)
      · exact .inr (.inr (hwrite ▸ hkeeps))
    | read a => exact .inr (.inr ⟨rfl, rfl⟩)
    | poll => exact .inr (.inr ⟨rfl, rfl⟩)
    | reset => exact .inl ⟨rest, rfl, rfl⟩

/-- Settles O11: of the three things a step can do to an idle block, only the acceptance of a command raises BUSY. -/
theorem idleHoldsStateUntilCommandWrite : Obligations.IdleHoldsStateUntilCommandWrite := by
  refine ⟨fun _ => step_of_no_input, fun s t hidle hstep hbusy => ?_⟩
  obtain ⟨rest, -, rfl⟩ | ⟨b, rest, hin, hfault, rfl⟩ | ⟨hstatus, -⟩ := step_cases_of_idle hidle hstep
  · cases hbusy
  · exact ⟨hfault, b, rest, hin, rfl⟩
  · rw [hstatus, hidle] at hbusy
    cases hbusy

/-- Settles O54: with the reset excluded by hypothesis and acceptance by FAULT = 1, the step keeps STATUS and the records. -/
theorem faultIsStickyUntilReset : Obligations.FaultIsStickyUntilReset := by
  intro s t hfault hidle hreset hstep
  obtain ⟨rest, hin, -⟩ | ⟨_, _, -, hnofault, -⟩ | ⟨hstatus, hrec⟩ := step_cases_of_idle hidle hstep
  · exact absurd hin (hreset rest)
  · rw [hfault] at hnofault
    cases hnofault
  · exact ⟨hstatus ▸ hfault, hstatus ▸ hidle, hrec⟩

end Sys2Proof.Machine

/-! ### The completion of every command: its checks, its writes, and the flags and registers they reach -/

namespace Sys2Proof.Machine

/-! ### Every command is its checks and its writes -/

/-- The checks of a command, in the spec's order (42_packet.md R200, R205, R210, 43_fast_path.md R230, R231). -/
def commandChecks : Instr → State → List Check
  | .build, s => buildChecks s
  | .encode, s => encodeChecks s
  | .decode, s => decodeChecks s
  | .cmpslots, s => cmpslotsChecks s
  | .patch, s => patchChecks s

/-- The writes of a command whose checks all hold. -/
def commandWrites : Instr → State → State
  | .build, s => buildWrites s
  | .encode, s => encodeWrites s
  | .decode, s => decodeWrites s
  | .cmpslots, s => setCmpEq (slotsEqual s) s
  | .patch, s => patchWrites s

theorem exec_eq_guarded (i : Instr) (s : State) : exec i s = guarded (commandChecks i s) s (commandWrites i s) := by
  cases i <;> rfl

/-- Everything a command can do: all its checks hold and it ends in its writes, or the first check that fails decides the
fault (60_exceptions.md R257, R260). -/
theorem exec_next_cases {i : Instr} {s t : State} (h : exec i s = .next t) :
    ((∀ c ∈ commandChecks i s, c.ok = true) ∧ t = finish (commandWrites i s)) ∨
    ∃ c ∈ commandChecks i s, firstFailed (commandChecks i s) = some c ∧ t = takeFault c.code c.info s := by
  rw [exec_eq_guarded] at h
  obtain ⟨hok, hdone⟩ | ⟨c, hfirst, hmem, -, htake⟩ := guarded_cases (commandChecks i s) s (commandWrites i s)
  · cases hdone.symm.trans h
    exact .inl ⟨hok, rfl⟩
  · cases htake.symm.trans h
    exact .inr ⟨c, hmem, hfirst, rfl⟩

theorem exec_answers_next (i : Instr) (s : State) : ∃ t, exec i s = .next t := by
  rw [exec_eq_guarded]
  obtain ⟨-, hdone⟩ | ⟨c, -, -, -, htake⟩ := guarded_cases (commandChecks i s) s (commandWrites i s)
  · exact ⟨_, hdone⟩
  · exact ⟨_, htake⟩

/-- `c` names a fault of Table 60-1, with information below 2^16 (60_exceptions.md R256, R259). -/
def Check.NamesFault (c : Check) : Prop := c.code ≠ .none ∧ c.info < 2 ^ 16

/-! Each check names its fault; the information is an address, a count, an index or a length. -/

@[simp] theorem checkBufLen_namesFault (s : State) : (checkBufLen s).NamesFault :=
  ⟨nofun, show 0x0004 < 2 ^ 16 by decide⟩
@[simp] theorem checkVbufLen_namesFault (s : State) : (checkVbufLen s).NamesFault :=
  ⟨nofun, show 0x0006 < 2 ^ 16 by decide⟩
@[simp] theorem checkNameInLen_namesFault (s : State) : (checkNameInLen s).NamesFault :=
  ⟨nofun, show 0x0020 < 2 ^ 16 by decide⟩
@[simp] theorem checkSlotCount_namesFault (s : State) : (checkSlotCount s).NamesFault :=
  ⟨nofun, s.args.slotCount.isLt⟩
@[simp] theorem checkValuesRange_namesFault (s : State) : (checkValuesRange s).NamesFault :=
  ⟨nofun, max_lt s.args.srcOffset.isLt s.args.vbufLen.isLt⟩
@[simp] theorem checkSlotsInBuf_namesFault (s : State) : (checkSlotsInBuf s).NamesFault :=
  ⟨nofun, max_lt (by decide) s.args.bufLen.isLt⟩
@[simp] theorem checkSeqInBuf_namesFault (s : State) : (checkSeqInBuf s).NamesFault :=
  ⟨nofun, show 111 < 2 ^ 16 by decide⟩
@[simp] theorem checkValid_namesFault (s : State) : (checkValid s).NamesFault :=
  ⟨nofun, show 0 < 2 ^ 16 by decide⟩
@[simp] theorem checkPacketFits_namesFault (s : State) : (checkPacketFits s).NamesFault := by
  have hlen := len12_lt s.framing.flen
  exact ⟨nofun, show 38 + len12 s.framing.flen < 2 ^ 16 by omega⟩
@[simp] theorem checkPayload_namesFault (B : List Byte) (n : U16) : (checkPayload B n.toNat).NamesFault :=
  ⟨nofun, n.isLt⟩

/-- DECODE makes the capacity check, and in its last stage the payload check too (60_exceptions.md R260). -/
theorem decodeChecks_eq_or (s : State) :
    decodeChecks s = [checkBufLen s] ∨ decodeChecks s = [checkBufLen s, checkPayload s.packetBytes s.bufLen] := by
  rw [decodeChecks]
  exact ite_eq_or_eq _ _ _

/-- A command raises only faults of Table 60-1 (60_exceptions.md R256, R259). -/
theorem commandChecks_namesFault (i : Instr) (s : State) : ∀ c ∈ commandChecks i s, c.NamesFault := by
  cases i with
  | build => simp [commandChecks, buildChecks]
  | encode => simp [commandChecks, encodeChecks]
  | decode =>
    obtain hone | htwo := decodeChecks_eq_or s
    · simp [commandChecks, hone]
    · simp [commandChecks, htwo, State.bufLen]
  | cmpslots => simp [commandChecks, cmpslotsChecks]
  | patch => simp [commandChecks, patchChecks]

/-! ### The completion step -/

theorem complete_of_decodeByte_ok {s : State} {i : Instr} (h : decodeByte s.pending = .ok i) : complete s = exec i s := by
  simp [complete, decode, h]

theorem complete_of_decodeByte_error {s : State} {e : DecodeError} (h : decodeByte s.pending = .error e) :
    complete s = .next (takeFault .badCmd s.pending.toNat s) := by
  simp [complete, decode, h]

/-- Everything a completion step can do: the writes of a command whose checks hold, or a fault on the state before. -/
theorem complete_next_cases {s t : State} (h : complete s = .next t) :
    (∃ i, (∀ c ∈ commandChecks i s, c.ok = true) ∧ t = finish (commandWrites i s)) ∨
    ∃ code info, code ≠ .none ∧ info < 2 ^ 16 ∧ t = takeFault code info s := by
  cases hbyte : decodeByte s.pending with
  | ok i =>
    rw [complete_of_decodeByte_ok hbyte] at h
    obtain ⟨hok, hdone⟩ | ⟨c, hmem, -, htake⟩ := exec_next_cases h
    · exact .inl ⟨i, hok, hdone⟩
    · obtain ⟨hcode, hinfo⟩ := commandChecks_namesFault i s c hmem
      exact .inr ⟨c.code, c.info, hcode, hinfo, htake⟩
  | error e =>
    cases (complete_of_decodeByte_error hbyte).symm.trans h
    exact .inr ⟨.badCmd, s.pending.toNat, nofun, s.pending.isLt.trans (by decide), rfl⟩

theorem complete_answers_next (s : State) : ∃ t, complete s = .next t := by
  cases hbyte : decodeByte s.pending with
  | ok i => exact complete_of_decodeByte_ok hbyte ▸ exec_answers_next i s
  | error e => exact ⟨_, complete_of_decodeByte_error hbyte⟩

/-! ### What the writes of a command leave as it is -/

/-- Of STATUS and MAL_INFO the writes of a command reach the flags of Table 10-5 alone (10_state.md R55). -/
theorem commandWrites_flags (i : Instr) (s : State) :
    (commandWrites i s).status.fault = s.status.fault ∧ (commandWrites i s).status.overrun = s.status.overrun ∧
    (i ≠ .cmpslots → (commandWrites i s).status.cmpEq = s.status.cmpEq) ∧
    (i ≠ .build → i ≠ .decode →
      (commandWrites i s).status.valid = s.status.valid ∧ (commandWrites i s).status.malformed = s.status.malformed ∧
      (commandWrites i s).malInfo = s.malInfo) := by
  cases i with
  | build => exact ⟨rfl, rfl, fun _ => rfl, fun h => absurd rfl h⟩
  | encode => exact ⟨rfl, rfl, fun _ => rfl, fun _ _ => ⟨rfl, rfl, rfl⟩⟩
  | decode =>
    obtain ⟨-, hw⟩ | ⟨-, -, hw⟩ | ⟨-, -, -, hw⟩ | ⟨-, -, -, hw⟩ := decodeWrites_cases s <;>
      simp [commandWrites, hw]
  | cmpslots => exact ⟨rfl, rfl, fun h => absurd rfl h, fun _ _ => ⟨rfl, rfl, rfl⟩⟩
  | patch => exact ⟨rfl, rfl, fun _ => rfl, fun _ _ => ⟨rfl, rfl, rfl⟩⟩

/-- The writes of a command reach the registers and memories of Table 30-2 alone (30_encoding.md R103). -/
theorem commandWrites_targets (i : Instr) (s : State) :
    (commandWrites i s).vbuf = s.vbuf ∧ (commandWrites i s).nameIn = s.nameIn ∧
    (commandWrites i s).pending = s.pending ∧ (commandWrites i s).params = s.params ∧
    (commandWrites i s).resets = s.resets ∧ (commandWrites i s).host = s.host ∧
    (i ≠ .encode → (commandWrites i s).args = s.args) ∧
    { (commandWrites i s).args with bufLen := s.args.bufLen } = s.args ∧
    (i ≠ .encode → i ≠ .patch → (commandWrites i s).pbuf = s.pbuf) ∧
    (i ≠ .build → i ≠ .decode →
      (commandWrites i s).root = s.root ∧ (commandWrites i s).framing = s.framing ∧
      (commandWrites i s).data = s.data ∧ (commandWrites i s).pv = s.pv) := by
  cases i with
  | build =>
    exact ⟨rfl, rfl, rfl, rfl, rfl, rfl, fun _ => rfl, rfl, fun _ _ => rfl, fun h => absurd rfl h⟩
  | encode =>
    exact ⟨rfl, rfl, rfl, rfl, rfl, rfl, fun h => absurd rfl h, rfl, fun h => absurd rfl h,
      fun _ _ => ⟨rfl, rfl, rfl, rfl⟩⟩
  | decode =>
    obtain ⟨-, hw⟩ | ⟨-, -, hw⟩ | ⟨-, -, -, hw⟩ | ⟨-, -, -, hw⟩ := decodeWrites_cases s <;>
      simp [commandWrites, hw]
  | cmpslots =>
    exact ⟨rfl, rfl, rfl, rfl, rfl, rfl, fun _ => rfl, rfl, fun _ _ => rfl, fun _ _ => ⟨rfl, rfl, rfl, rfl⟩⟩
  | patch =>
    exact ⟨rfl, rfl, rfl, rfl, rfl, rfl, fun _ => rfl, rfl, fun _ h => absurd rfl h,
      fun _ _ => ⟨rfl, rfl, rfl, rfl⟩⟩

/-- Settles O52: a fault touches FAULT and BUSY alone, and the writes of each command its own flags. -/
theorem commandsChangeOnlyTheirFlags : Obligations.CommandsChangeOnlyTheirFlags := by
  intro i s t hexec
  obtain ⟨-, rfl⟩ | ⟨c, -, -, rfl⟩ := exec_next_cases hexec
  · obtain ⟨hfault, hoverrun, hcmp, hmal⟩ := commandWrites_flags i s
    exact ⟨rfl, hoverrun, hcmp, hmal, hfault.trans⟩
  · exact ⟨rfl, rfl, fun _ => rfl, fun _ _ => ⟨rfl, rfl, rfl⟩, fun _ => rfl⟩

/-- Settles O53: a fault writes no register or memory but the fault records, and the writes of each command its own
targets. -/
theorem commandsWriteOnlyTheirTargets : Obligations.CommandsWriteOnlyTheirTargets := by
  intro i s t hexec
  obtain ⟨-, rfl⟩ | ⟨c, -, -, rfl⟩ := exec_next_cases hexec
  · exact commandWrites_targets i s
  · exact ⟨rfl, rfl, rfl, rfl, rfl, rfl, fun _ => rfl, rfl, fun _ _ => rfl, fun _ _ => ⟨rfl, rfl, rfl, rfl⟩⟩

/-- Settles O51: a completion that leaves FAULT = 1 from FAULT = 0 is not one of the writes, which keep FAULT; so it took a
fault on the state before. -/
theorem faultDiscardsEveryWrite : Obligations.FaultDiscardsEveryWrite := by
  intro s t hbusy hdue hnofault hstep hfault
  rw [step_of_blockTurn (blockTurn_of_due hbusy hdue)] at hstep
  obtain ⟨i, -, rfl⟩ | ⟨code, info, hcode, -, rfl⟩ := complete_next_cases hstep
  · obtain ⟨hkeeps, -⟩ := commandWrites_flags i s
    cases hfault.symm.trans (hkeeps.trans hnofault)
  · exact ⟨rfl, hcode⟩

/-! ### Every step answers a next state -/

/-- Settles O13: a completion step answers one, and so do rest and every event from outside. -/
theorem stepAlwaysAnswersNext : Obligations.StepAlwaysAnswersNext := by
  intro s
  obtain ⟨-, hstep⟩ | ⟨-, -, hstep⟩ | ⟨op, rest, -, -, hstep⟩ := step_cases s
  · exact hstep ▸ complete_answers_next s
  · exact ⟨_, hstep⟩
  · exact ⟨_, hstep⟩

/-- Everything one step can do: the completion step, rest, or one event from outside. -/
theorem step_next_cases {s t : State} (h : step s = .next t) :
    (blockTurn s = true ∧ complete s = .next t) ∨ t = s ∨
    ∃ op rest, blockTurn s = false ∧ s.host.inputs = op :: rest ∧ t = hostTurn op rest s := by
  obtain ⟨hturn, hstep⟩ | ⟨-, -, hstep⟩ | ⟨op, rest, hturn, hin, hstep⟩ := step_cases s
  · exact .inl ⟨hturn, hstep.symm.trans h⟩
  · cases hstep.symm.trans h
    exact .inr (.inl rfl)
  · cases hstep.symm.trans h
    exact .inr (.inr ⟨op, rest, hturn, hin, rfl⟩)

/-- A host write raises OVERRUN or leaves it, and leaves FAULT and the parameters (60_exceptions.md R252, R254). -/
theorem hostWrite_keeps (a : Addr) (v : Byte) (s : State) :
    (s.status.overrun = true → (hostWrite a v s).status.overrun = true) ∧
    (hostWrite a v s).status.fault = s.status.fault ∧ (hostWrite a v s).params = s.params := by
  cases hbusy : s.status.busy with
  | true => simp [hostWrite_of_busy a v hbusy]
  | false =>
    rw [hostWrite_of_idle a v hbusy]
    obtain ⟨-, hw⟩ | ⟨-, -, hw⟩ | ⟨-, -, -, hw⟩ | ⟨-, -, -, hw⟩ | ⟨-, -, -, hw⟩ | ⟨-, -, -, -, hw⟩ :=
      writeIdle_cases a v s
    case inl =>
      cases hfault : s.status.fault with
      | true => simp [hw, writeCmd_of_fault v hfault, hfault]
      | false => simp [hw, writeCmd_of_no_fault v hfault, hfault]
    all_goals simp [hw]

/-- Settles O55: a completion keeps OVERRUN and clears no FAULT, and of the events from outside a write and a read clear
neither. -/
theorem onlyResetClearsOverrunAndFault : Obligations.OnlyResetClearsOverrunAndFault := by
  intro s t hstep hclears
  have hkeeps : (s.status.overrun = true → t.status.overrun = true) →
      (s.status.fault = true → t.status.fault = true) → ∃ rest, s.host.inputs = .reset :: rest := by
    intro hoverrun hfault
    obtain ⟨hset, hclear⟩ | ⟨hset, hclear⟩ := hclears
    · cases hclear.symm.trans (hoverrun hset)
    · cases hclear.symm.trans (hfault hset)
  obtain ⟨-, hcomplete⟩ | rfl | ⟨op, rest, -, hin, rfl⟩ := step_next_cases hstep
  · obtain ⟨i, -, rfl⟩ | ⟨code, info, -, -, rfl⟩ := complete_next_cases hcomplete
    · obtain ⟨hfault, hoverrun, -⟩ := commandWrites_flags i s
      exact hkeeps hoverrun.trans hfault.trans
    · exact hkeeps id fun _ => rfl
  · exact hkeeps id id
  · cases op with
    | write a v =>
      obtain ⟨hoverrun, hfault, -⟩ := hostWrite_keeps a v (popInput rest s)
      exact hkeeps hoverrun hfault.trans
    | read a => exact hkeeps id id
    | poll => exact hkeeps id id
    | reset => exact ⟨rest, hin⟩

end Sys2Proof.Machine

/-! ### The invariant: it holds after reset, every step keeps it, and a held packet fits in every run -/

namespace Sys2Proof.Machine

/-! ### After reset -/

/-- Right after reset no packet is held, no fault is recorded and no memory byte is listed (10_state.md R57). -/
theorem inv_resetWith {p : Params} (hp : p.InRange) : Inv (State.resetWith p) where
  params_inRange := hp
  pbuf_wf := Memory.nil_wf _
  vbuf_wf := Memory.nil_wf _
  nameIn_wf := Memory.nil_wf _
  pv_wf := Memory.nil_wf _
  packet_fits := nofun
  root_counts_framing := nofun
  malInfo_agrees := rfl
  no_fault_no_record _ := rfl
  fault_has_code := nofun
  info_is_u16 := show 0 < 2 ^ 16 by decide
  busy_not_fault := nofun

/-- Settles O58: the reset state is the one of the default parameters, which are in range. -/
theorem invariantHoldsAfterReset : Obligations.InvariantHoldsAfterReset :=
  ⟨inv_resetWith (by decide), fun _ => inv_resetWith⟩

/-! ### What changes nothing the invariant speaks of -/

/-- A byte written below the capacity keeps the canonical form (20_memory.md R80). -/
theorem wf_write_byte {cap i : Nat} {m : List Host.Cell} (hm : Memory.wf cap m) (hi : i < cap) (v : Byte) :
    Memory.wf cap (Memory.write m i [v]) := Memory.write_wf i [v] hm hi

section Keeps

variable {s : State} (h : Inv s)
include h

/-- An idle block is in the invariant where the running one is. -/
theorem Inv.finish : Inv (finish s) := { h with busy_not_fault := nofun }

/-- Taking a fault of Table 60-1 records it, and drops BUSY (60_exceptions.md R257). -/
theorem Inv.takeFault {code : FaultCode} {info : Nat} (hcode : code ≠ .none) (hinfo : info < 2 ^ 16) :
    Inv (takeFault code info s) :=
  { h with
    no_fault_no_record := nofun
    fault_has_code := fun _ => hcode
    info_is_u16 := by
      change (BitVec.ofNat 32 info).toNat < 2 ^ 16
      rw [BitVec.toNat_ofNat]
      omega
    busy_not_fault := nofun }

theorem Inv.accept (b : Byte) (hfault : s.status.fault = false) : Inv (accept b s) :=
  { h with busy_not_fault := fun _ => hfault }

/-! ### The events from outside -/

/-- An idle write to a memory stays below its capacity (20_memory.md R82); one to the control region writes argument
registers, which the invariant says nothing of. -/
theorem Inv.writeIdle (a : Addr) (v : Byte) : Inv (writeIdle a v s) := by
  obtain ⟨-, hw⟩ | ⟨-, -, hw⟩ | ⟨hlo, hcap, -, hw⟩ | ⟨hlo, hcap, -, hw⟩ | ⟨hlo, hcap, -, hw⟩ | ⟨-, -, -, -, hw⟩ :=
    writeIdle_cases a v s <;> rw [hw]
  · cases hfault : s.status.fault with
    | true => exact (writeCmd_of_fault v hfault).symm ▸ h
    | false => exact (writeCmd_of_no_fault v hfault).symm ▸ h.accept v hfault
  · exact { h with }
  · exact { h with nameIn_wf := wf_write_byte h.nameIn_wf (Nat.sub_lt_left_of_lt_add hlo hcap) v }
  · exact { h with pbuf_wf := wf_write_byte h.pbuf_wf (Nat.sub_lt_left_of_lt_add hlo hcap) v }
  · exact { h with vbuf_wf := wf_write_byte h.vbuf_wf (Nat.sub_lt_left_of_lt_add hlo hcap) v }
  · exact h

theorem Inv.hostWrite (a : Addr) (v : Byte) : Inv (hostWrite a v s) := by
  cases hbusy : s.status.busy with
  | true => exact (hostWrite_of_busy a v hbusy).symm ▸ { h with }
  | false => exact (hostWrite_of_idle a v hbusy).symm ▸ h.writeIdle a v

/-- Every event from outside keeps the invariant: a write by `Inv.hostWrite`, a reset anew, a read touches the host only. -/
theorem Inv.hostTurn (op : HostOp) (rest : List HostOp) : Inv (hostTurn op rest s) := by
  have hpop : Inv (popInput rest s) := { h with }
  cases op with
  | write a v => exact hpop.hostWrite a v
  | read a => exact { h with }
  | poll => exact { h with }
  | reset => exact { inv_resetWith h.params_inRange with }

/-! ### The writes of the commands -/

/-- A built packet counts its slots and the start code, which fit in PV and in the packet (42_packet.md R202). -/
theorem Inv.buildWrites (haccepts : BuildAccepts s) : Inv (buildWrites s) := by
  have ⟨hmax, hroom, _⟩ := h.params_inRange
  have ⟨_, _, hslots, _⟩ := haccepts
  have hN : s.slotCount ≤ 3985 := slotCount_le hmax haccepts
  have hpv : Memory.wf s.params.pvCap (Memory.write s.pv 0 (propertyValues s.slotValues)) :=
    Memory.write_wf _ _ h.pv_wf (by rw [propertyValues, List.length_cons, slotValues_length, Params.pvCap]; omega)
  exact { h with
    pv_wf := hpv
    packet_fits := fun _ => by
      change 125 + (builtData s).count.toNat ≤ packetLength (builtFraming s) ∧
        packetLength (builtFraming s) ≤ s.params.pbufSize ∧ (builtData s).count.toNat ≤ s.params.pbufSize - 125
      rw [packetLength_builtFraming hN, builtData_count_toNat hN]
      omega
    root_counts_framing := fun _ => len12_builtRoot_eq_add hN
    malInfo_agrees := rfl }

/-- The image ENCODE writes is as long as the packet, which fits (42_packet.md R205). -/
theorem Inv.encodeWrites (haccepts : EncodeAccepts s) : Inv (encodeWrites s) := by
  obtain ⟨-, hcap, hcount⟩ := haccepts
  have hpbuf : Memory.wf s.params.pbufSize (Memory.write s.pbuf 0 (packetImage s)) :=
    Memory.write_wf _ _ h.pbuf_wf (by rwa [packetImage_length hcount, Nat.zero_add])
  exact { h with pbuf_wf := hpbuf }

/-- A packet marked malformed is not held (42_packet.md R212). -/
theorem Inv.setMalformed {m : MalInfo} (hm : m = malSize ∨ m = malRoot ∨ m = malFraming) (r : RootLayer)
    (f : FramingLayer) : Inv (setMalformed m { s with root := r, framing := f }) :=
  { h with
    packet_fits := nofun
    root_counts_framing := nofun
    malInfo_agrees := ⟨rfl, hm⟩ }

/-- A DECODE that reaches its last stage stores a packet of BUF_LEN bytes, which the capacity check, the two length checks
and the payload check bound (42_packet.md R214). -/
theorem Inv.decodeWrites (hok : ∀ c ∈ decodeChecks s, c.ok = true) : Inv (decodeWrites s) := by
  obtain ⟨-, hw⟩ | ⟨-, -, hw⟩ | ⟨-, -, -, hw⟩ | ⟨hsize, hroot, hframing, hw⟩ := decodeWrites_cases s <;> rw [hw]
  · exact h.setMalformed (.inl rfl) s.root s.framing
  · exact h.setMalformed (.inr (.inl rfl)) (rootDecode s.packetBytes) s.framing
  · exact h.setMalformed (.inr (.inr rfl)) (rootDecode s.packetBytes) (framingDecode s.packetBytes)
  · rw [decodeChecks_of_good hsize hroot hframing] at hok
    obtain ⟨hcap, hpayload⟩ : s.bufLen ≤ s.params.pbufSize ∧
        125 + (dataDecode s.packetBytes).count.toNat ≤ s.bufLen := by simpa using hok
    rw [rootMalformed_eq_false_iff] at hroot
    rw [framingMalformed_eq_false_iff] at hframing
    have hvalues : (rdstr s.packetBytes 125 (dataDecode s.packetBytes).count.toNat).length ≤
        (dataDecode s.packetBytes).count.toNat := List.length_take_le _ _
    have hpv : Memory.wf s.params.pvCap
        (Memory.write s.pv 0 (rdstr s.packetBytes 125 (dataDecode s.packetBytes).count.toNat)) :=
      Memory.write_wf _ _ h.pv_wf (by rw [Params.pvCap]; omega)
    exact { h with
      pv_wf := hpv
      packet_fits := fun _ => by
        change 125 + (dataDecode s.packetBytes).count.toNat ≤ 38 + len12 (framingDecode s.packetBytes).flen ∧
          38 + len12 (framingDecode s.packetBytes).flen ≤ s.params.pbufSize ∧
          (dataDecode s.packetBytes).count.toNat ≤ s.params.pbufSize - 125
        omega
      root_counts_framing := fun _ => by
        change len12 (rootDecode s.packetBytes).flen = len12 (framingDecode s.packetBytes).flen + 22
        omega
      malInfo_agrees := rfl }

/-- PATCH writes below BUF_LEN, or no slot at all (43_fast_path.md R231). -/
theorem Inv.patchWrites (haccepts : SlotsAccept s) : Inv (patchWrites s) := by
  have ⟨_, hroom, _⟩ := h.params_inRange
  obtain ⟨hcap, -, hslots, -⟩ := haccepts
  have hpbuf : Memory.wf s.params.pbufSize (Memory.write s.pbuf 126 s.slotValues) :=
    Memory.write_wf _ _ h.pbuf_wf (by rw [slotValues_length]; omega)
  exact { h with pbuf_wf := wf_write_byte hpbuf (show 111 < s.params.pbufSize by omega) s.args.seq }

/-- The writes of a command whose checks hold keep the invariant. -/
theorem Inv.commandWrites (i : Instr) (hok : ∀ c ∈ commandChecks i s, c.ok = true) : Inv (commandWrites i s) := by
  cases i with
  | build => exact h.buildWrites ((buildChecks_ok_iff s).mp hok)
  | encode => exact h.encodeWrites ((encodeChecks_ok_iff s).mp hok)
  | decode => exact h.decodeWrites hok
  | cmpslots => exact { h with }
  | patch => exact h.patchWrites ((patchChecks_ok_iff s).mp hok).1

/-! ### Every step -/

theorem Inv.complete {t : State} (hcomplete : complete s = .next t) : Inv t := by
  obtain ⟨i, hok, rfl⟩ | ⟨code, info, hcode, hinfo, rfl⟩ := complete_next_cases hcomplete
  · exact (h.commandWrites i hok).finish
  · exact h.takeFault hcode hinfo

theorem Inv.step {t : State} (hstep : step s = .next t) : Inv t := by
  obtain ⟨-, hcomplete⟩ | rfl | ⟨op, rest, -, -, rfl⟩ := step_next_cases hstep
  · exact h.complete hcomplete
  · exact h
  · exact h.hostTurn op rest

end Keeps

/-- Settles O59: a completion step ends in a command's writes or in a fault, and both keep the invariant, as rest and every
event from outside do. -/
theorem stepKeepsTheInvariant : Obligations.StepKeepsTheInvariant := fun _ _ h hstep => h.step hstep

/-- What holds at the start of a run holds after any number of steps. -/
theorem Inv.run {k : Nat} {s t : State} (h : Inv s) (hrun : Sys2Proof.core.run k s = .next t) : Inv t := by
  induction k generalizing s with
  | zero =>
    cases hrun
    exact h
  | succ k ih =>
    obtain ⟨u, hstep⟩ := stepAlwaysAnswersNext s
    rw [run_succ_of_next k hstep] at hrun
    exact ih (h.step hstep) hrun

/-- Settles O60: the state after the run is in the invariant, which bounds the packet it holds. -/
theorem validPacketFitsInEveryRun : Obligations.ValidPacketFitsInEveryRun :=
  fun _ _ _ h hrun hvalid => (h.run hrun).packet_fits hvalid

end Sys2Proof.Machine

/-! ### Steps and runs: the command byte, the events from outside, the completion of an accepted command -/

namespace Sys2Proof.Machine

/-! ### The command byte -/

theorem decode_cons_of_ok {b : Byte} {i : Instr} (h : decodeByte b = .ok i) (rest : List Byte) :
    decode (b :: rest) = .ok (i, rest) := by
  simp [decode, h]

/-- Settles O2: a command is its opcode byte, which `decodeByte` inverts; the table word is checked for each row. -/
theorem decodeOfEncode : Obligations.DecodeOfEncode := by
  refine fun i rest => ⟨decode_cons_of_ok (decodeByte_opcode i) rest, rfl, ?_⟩
  cases i <;> rfl

/-- Settles O3: by evaluation of the decoder on the written-out bytes. -/
theorem writtenOutBytesDecode : Obligations.WrittenOutBytesDecode := ⟨rfl, rfl, rfl, rfl, rfl, rfl⟩

theorem decodeByte_of_decode {b : Byte} {i : Instr} (h : decode [b] = .ok (i, [])) : decodeByte b = .ok i := by
  cases hbyte : decodeByte b with
  | ok j => simpa [decode, hbyte] using h
  | error e => simp [decode, hbyte] at h

/-- Settles O4: at the block's turn a step is the completion step, which runs the command PENDING names; after
`withFetchWord` it is the block's turn. -/
theorem stepRunsTheDecodedCommand : Obligations.StepRunsTheDecodedCommand := by
  constructor
  · intro s i hbusy hdue hdecode
    rw [step_of_blockTurn (blockTurn_of_due hbusy hdue), complete_of_decodeByte_ok (decodeByte_of_decode hdecode)]
  · intro s i
    have hplaced : s.withFetchWord 8 (opcode i).toNat = acceptNow (opcode i) s := by
      rw [State.withFetchWord, BitVec.ofNat_toNat, BitVec.setWidth_eq]
    rw [hplaced, step_of_blockTurn (blockTurn_of_due rfl (.inl rfl)), complete_of_decodeByte_ok (decodeByte_opcode i)]
    rfl

/-! ### The events from outside -/

/-- A busy block is not at its turn while some delay and some event are left (assumption log 5). -/
theorem blockTurn_of_delay {s : State} {op : HostOp} {rest : List HostOp} (hdelay : s.status.busy = true → s.host.delay ≠ 0)
    (hin : s.host.inputs = op :: rest) : blockTurn s = false := by
  cases hbusy : s.status.busy with
  | true => simp [blockTurn, hdelay hbusy, hin]
  | false => exact blockTurn_of_idle hbusy

/-- A write event at an idle block is the port's write (20_memory.md R92). -/
theorem step_of_idle_write {s : State} {a : Addr} {v : Byte} {rest : List HostOp} (hidle : s.status.busy = false)
    (hin : s.host.inputs = .write a v :: rest) : step s = .next (writeIdle a v (popInput rest s)) :=
  (step_of_input (blockTurn_of_idle hidle) hin).trans (congrArg _ (hostWrite_of_idle a v hidle))

/-- A write event that comes while delay is left only sets OVERRUN (60_exceptions.md R252, R254). -/
theorem step_of_busy_write {s : State} {a : Addr} {v : Byte} {rest : List HostOp} (hbusy : s.status.busy = true)
    (hdelay : s.host.delay ≠ 0) (hin : s.host.inputs = .write a v :: rest) :
    step s = .next (setOverrun (popInput rest s)) :=
  (step_of_input (blockTurn_of_delay (fun _ => hdelay) hin) hin).trans (congrArg _ (hostWrite_of_busy a v hbusy))

/-- Settles O7: with FAULT = 1 and BUSY = 0 the port's write to CMD does nothing, so the step only takes the event. -/
theorem commandWriteWhileFaultIsIgnored : Obligations.CommandWriteWhileFaultIsIgnored :=
  fun s b rest hidle hfault hin => ⟨(popInput rest s).host,
    (step_of_idle_write hidle hin).trans (congrArg _ (writeCmd_of_fault b hfault)), rfl, rfl⟩

/-- Settles O8: while delay is left the step is the host's write, which a busy block answers with OVERRUN alone. -/
theorem writeWhileBusyOnlySetsOverrun : Obligations.WriteWhileBusyOnlySetsOverrun :=
  fun _ _ _ _ => step_of_busy_write

/-- STATUS reads exactly at any time (20_memory.md R93). -/
theorem readValue_status (s : State) : readValue s 0x0001 = statusByte s.status := by
  simp [readValue, readIsDraw, portByte, controlByte]

/-- While BUSY every address but STATUS reads a free draw (20_memory.md R93). -/
theorem readIsDraw_of_busy {s : State} {a : Addr} (hbusy : s.status.busy = true) (ha : a ≠ 0x0001) :
    readIsDraw s a = true := by
  simpa [readIsDraw, hbusy] using ha

theorem readIsDraw_of_idle {s : State} (a : Addr) (hidle : s.status.busy = false) : readIsDraw s a = false := by
  simp [readIsDraw, hidle]

/-- Settles O9: the step is the host's read, which writes the byte read and the count of draws on the host side. -/
theorem hostReadChangesNothing : Obligations.HostReadChangesNothing := by
  intro s a rest hdelay hin
  have hstep : step s = .next (hostRead a (popInput rest s)) :=
    step_of_input (blockTurn_of_delay hdelay hin) hin
  refine ⟨_, readValue (popInput rest s) a, hstep, rfl, rfl, ?_, fun ha hbusy => ?_, fun hidle => ?_⟩
  · rintro rfl
    exact readValue_status _
  · have hdraw : readIsDraw (popInput rest s) a = true := readIsDraw_of_busy hbusy ha
    exact ⟨if_pos hdraw, if_pos hdraw⟩
  · have hexact : readIsDraw (popInput rest s) a = false := readIsDraw_of_idle a hidle
    exact ⟨if_neg (by simp [hexact]), if_neg (by simp [hexact])⟩

/-- Settles O10: the step is a read of STATUS, and the event stays for as long as BUSY reads 1. -/
theorem waitPollsStatusUntilIdle : Obligations.WaitPollsStatusUntilIdle := by
  intro s rest hdelay hin
  exact ⟨_, step_of_input (blockTurn_of_delay hdelay hin) hin,
    congrArg (fun v => ((0x0001 : Addr), v) :: s.host.reads) (readValue_status _), rfl⟩

/-- Settles O57: the step is the reset input, which keeps the parameters, counts the reset and leaves every memory empty, so
that each byte reads its draw. -/
theorem resetInputResetsEveryRegister : Obligations.ResetInputResetsEveryRegister := by
  intro s rest hdelay hin
  exact ⟨applyReset (popInput rest s), step_of_input (blockTurn_of_delay hdelay hin) hin, rfl, rfl,
    fun _ => ⟨rfl, rfl, rfl, rfl⟩⟩

/-! ### An accepted command completes -/

/-- `t` is `s` but for OVERRUN and the host side: what a busy block may become before its completion step. -/
def SameBlock (s t : State) : Prop :=
  t = { s with status := { s.status with overrun := t.status.overrun }, host := t.host }

theorem SameBlock.trans {s t u : State} (hst : SameBlock s t) (htu : SameBlock t u) : SameBlock s u := by
  rw [SameBlock] at *
  rw [htu, hst]

theorem SameBlock.pending_eq {s t : State} (h : SameBlock s t) : t.pending = s.pending := by
  rw [SameBlock] at h
  rw [h]

/-- An event other than a reset leaves a busy block as it is but for OVERRUN, spends one of the delay, and brings no new
event (60_exceptions.md R252, R255). -/
theorem hostTurn_of_busy {s : State} {op : HostOp} {rest : List HostOp} (hbusy : s.status.busy = true)
    (hop : op ≠ .reset) :
    SameBlock s (hostTurn op rest s) ∧ (hostTurn op rest s).status.busy = true ∧
      (hostTurn op rest s).host.delay = s.host.delay - 1 ∧
      ∀ o ∈ (hostTurn op rest s).host.inputs, o ∈ op :: rest := by
  cases op with
  | write a v =>
    have hwrite : hostTurn (.write a v) rest s = setOverrun (popInput rest s) := hostWrite_of_busy a v hbusy
    rw [hwrite]
    exact ⟨rfl, hbusy, rfl, fun _ => List.mem_cons_of_mem _⟩
  | read a => exact ⟨rfl, hbusy, rfl, fun _ => List.mem_cons_of_mem _⟩
  | poll =>
    have hinputs : (hostTurn .poll rest s).host.inputs = .poll :: rest := if_pos hbusy
    exact ⟨rfl, hbusy, rfl, fun _ ho => hinputs ▸ ho⟩
  | reset => exact absurd rfl hop

/-- A busy block comes to its turn, with nothing changed but OVERRUN and the host side, within as many steps as its delay,
unless a reset takes BUSY first (70_reset_and_hazards.md R302, R291). -/
theorem busy_run_to_turn (n : Nat) {s : State} (hbusy : s.status.busy = true) (hn : s.host.delay = n) :
    ∃ (k : Nat) (t : State), k ≤ n ∧ Sys2Proof.core.run k s = .next t ∧
      ((HostOp.reset ∈ s.host.inputs ∧ t.status.busy = false) ∨ (blockTurn t = true ∧ SameBlock s t)) := by
  induction n generalizing s with
  | zero => exact ⟨0, s, le_rfl, rfl, .inr ⟨blockTurn_of_due hbusy (.inl hn), rfl⟩⟩
  | succ n ih =>
    cases hin : s.host.inputs with
    | nil => exact ⟨0, s, Nat.zero_le _, rfl, .inr ⟨blockTurn_of_due hbusy (.inr hin), rfl⟩⟩
    | cons op rest =>
      have hstep : step s = .next (hostTurn op rest s) :=
        step_of_input (blockTurn_of_delay (fun _ => by omega) hin) hin
      by_cases hop : op = .reset
      · subst hop
        exact ⟨1, _, by omega, run_succ_of_next 0 hstep, .inl ⟨List.mem_cons_self, rfl⟩⟩
      · obtain ⟨hsame, hstill, hdelay, hinputs⟩ := hostTurn_of_busy (rest := rest) hbusy hop
        obtain ⟨k, t, hk, hrun, hend⟩ := ih hstill (by omega)
        refine ⟨k + 1, t, by omega, (run_succ_of_next k hstep).trans hrun, ?_⟩
        exact hend.imp (fun ⟨hreset, hidle⟩ => ⟨hinputs _ hreset, hidle⟩) fun ⟨hturn, hend⟩ => ⟨hturn, hsame.trans hend⟩

/-- BUSY falls with every completion step (60_exceptions.md R251, R257). -/
theorem complete_busy {s t : State} (h : complete s = .next t) : t.status.busy = false := by
  obtain ⟨i, -, rfl⟩ | ⟨code, info, -, -, rfl⟩ := complete_next_cases h <;> rfl

/-- A run of `k + 1` steps is a run of `k` and a step. -/
theorem run_add_one_of_next {k : Nat} {s t u : State} (hrun : Sys2Proof.core.run k s = .next t) (hstep : step t = .next u) :
    Sys2Proof.core.run (k + 1) s = .next u := by
  induction k generalizing s with
  | zero =>
    cases hrun
    exact run_succ_of_next 0 hstep
  | succ k ih =>
    obtain ⟨v, hv⟩ := stepAlwaysAnswersNext s
    rw [run_succ_of_next _ hv] at hrun ⊢
    exact ih hrun

/-- Settles O12: the block comes to its turn or is reset; at its turn the completion step drops BUSY, and runs what PENDING,
still the same, names. -/
theorem everyAcceptedCommandCompletes : Obligations.EveryAcceptedCommandCompletes := by
  intro s hbusy
  obtain ⟨k, t, hk, hrun, hend⟩ := busy_run_to_turn _ hbusy rfl
  obtain ⟨u, hcomplete⟩ := complete_answers_next t
  have hidle : u.status.busy = false := complete_busy hcomplete
  constructor
  · obtain ⟨-, hreset⟩ | ⟨hturn, -⟩ := hend
    · exact ⟨k, t, by omega, hrun, hreset⟩
    · exact ⟨k + 1, u, by omega, run_add_one_of_next hrun ((step_of_blockTurn hturn).trans hcomplete), hidle⟩
  · intro hnoreset
    obtain ⟨hreset, -⟩ | ⟨hturn, hsame⟩ := hend
    · exact absurd hreset hnoreset
    have hpending : t.pending = s.pending := hsame.pending_eq
    refine ⟨k, t, u, hk, hrun, hsame, (step_of_blockTurn hturn).trans hcomplete, hidle, fun i hi => ?_, fun e he => ?_⟩
    · rw [← hcomplete, complete_of_decodeByte_ok (hpending ▸ hi)]
    · have hfault := hcomplete.symm.trans (complete_of_decodeByte_error (hpending ▸ he))
      rw [hpending] at hfault
      cases hfault
      rfl

/-! ### A write that races the completion -/

/-- What a completed ENCODE of a held packet is: its writes, with BUSY = 0. -/
theorem complete_of_encode {s : State} (hpending : s.pending = 0x02) (haccepts : EncodeAccepts s) :
    complete s = .next (finish (encodeWrites s)) := by
  rw [complete_of_decodeByte_ok (i := .encode) (by rw [hpending]; rfl), exec_encode_of_accepts haccepts]

/-- The delay of an accepted command is the first of the given latencies, if there is one (assumption log 5). -/
theorem nextDelay_delay_of_cons {h : HostSide} {l : Nat} {ls : List Nat} (hlat : h.latencies = l :: ls) :
    (nextDelay h).delay = l := by
  simp [nextDelay, hlat]

section Race

variable {s : State} {a : Addr} {v : Byte} (hpending : s.pending = 0x02) (hbusy : s.status.busy = true)
  (haccepts : EncodeAccepts s) (hin : s.host.inputs = [.write a v])
include hpending hbusy haccepts hin

/-- With no delay the ENCODE completes before the last write comes. -/
theorem run_of_write_after_completion (hdelay : s.host.delay = 0) :
    Sys2Proof.core.run 2 s = .next (writeIdle a v (popInput [] (finish (encodeWrites s)))) := by
  have hcomplete : step s = .next (finish (encodeWrites s)) :=
    (step_of_blockTurn (blockTurn_of_due hbusy (.inl hdelay))).trans (complete_of_encode hpending haccepts)
  have hwrite : step (finish (encodeWrites s)) = .next (writeIdle a v (popInput [] (finish (encodeWrites s)))) :=
    step_of_idle_write (s := finish (encodeWrites s)) rfl hin
  exact (run_succ_of_next 1 hcomplete).trans (run_succ_of_next 0 hwrite)

/-- With some delay the last write comes first, and only sets OVERRUN; with no event left the ENCODE completes. -/
theorem run_of_write_before_completion (hdelay : s.host.delay ≠ 0) :
    Sys2Proof.core.run 2 s = .next (finish (encodeWrites (setOverrun (popInput [] s)))) := by
  have hwrite : step s = .next (setOverrun (popInput [] s)) :=
    step_of_busy_write hbusy hdelay hin
  have hcomplete : step (setOverrun (popInput [] s)) = .next (finish (encodeWrites (setOverrun (popInput [] s)))) :=
    (step_of_blockTurn (blockTurn_of_due (s := setOverrun (popInput [] s)) hbusy (.inr rfl))).trans
      (complete_of_encode hpending haccepts)
  exact (run_succ_of_next 1 hwrite).trans (run_succ_of_next 0 hcomplete)

end Race

/-- Settles O14: after the accept, latency 0 makes the completion the next step and the write an idle one; any other latency
lets the write come first, to a busy block, and the completion after it. -/
theorem writeRacingTheCompletionHasTwoOutcomes : Obligations.WriteRacingTheCompletionHasTwoOutcomes := by
  intro s v l ls hidle hfault haccepts hin hlat
  rw [run_succ_of_next 2 (step_of_cmd_write hidle hfault hin)]
  have hinputs := nextDelay_inputs (popInput [.write 0x000C v] s).host
  have hdelay : (nextDelay (popInput [.write 0x000C v] s).host).delay = l := nextDelay_delay_of_cons hlat
  by_cases hl : l = 0
  · exact ⟨_, run_of_write_after_completion rfl rfl haccepts hinputs (hdelay.trans hl), rfl, hfault, rfl,
      fun _ => ⟨rfl, rfl⟩, fun h => absurd hl h⟩
  · exact ⟨_, run_of_write_before_completion rfl rfl haccepts hinputs (hdelay ▸ hl), rfl, hfault, rfl,
      fun h => absurd h hl, fun _ => ⟨rfl, rfl⟩⟩

end Sys2Proof.Machine

/-! ### The results of every command: its faults in order, and what it writes when its checks hold -/

namespace Sys2Proof.Machine

/-! ### The faults in order (60_exceptions.md R260) -/

/-- The first check that fails decides the fault, and nothing else changes (60_exceptions.md R257, R260). -/
theorem exec_of_firstFailed {i : Instr} {s : State} {c : Check} (h : firstFailed (commandChecks i s) = some c) :
    exec i s = .next (raised c.code c.info s) := by
  rw [exec_eq_guarded, guarded_of_failed h, takeFault_eq_raised]

/-- Settles O27: each clause makes the checks before its own hold and its own fail. -/
theorem buildFaultsInOrder : Obligations.BuildFaultsInOrder := by
  intro s
  refine ⟨fun hvbuf => ?_, fun hvbuf hname => ?_, fun hvbuf hname hslots => ?_, fun hvbuf hname hslots hN hvalues => ?_⟩
  · exact exec_of_firstFailed (c := checkVbufLen s) (by simp [commandChecks, buildChecks, firstFailed_cons, hvbuf])
  · exact exec_of_firstFailed (c := checkNameInLen s)
      (by simp [commandChecks, buildChecks, firstFailed_cons, hvbuf, hname])
  · exact exec_of_firstFailed (c := checkSlotCount s)
      (by simp [commandChecks, buildChecks, firstFailed_cons, hvbuf, hname, hslots])
  · exact exec_of_firstFailed (c := checkValuesRange s)
      (by simp [commandChecks, buildChecks, firstFailed_cons, hvbuf, hname, hslots, hN.ne', hvalues])

/-- Settles O32: VALID is checked before the packet's length. -/
theorem encodeFaultsInOrder : Obligations.EncodeFaultsInOrder := by
  intro s
  refine ⟨fun hvalid => ?_, fun hvalid hunfit => ?_⟩
  · exact exec_of_firstFailed (c := checkValid s) (by simp [commandChecks, encodeChecks, firstFailed_cons, hvalid])
  · have hfails : ¬ (packetLength s.framing ≤ s.params.pbufSize ∧
        125 + s.data.count.toNat ≤ packetLength s.framing) := by omega
    exact exec_of_firstFailed (c := checkPacketFits s)
      (by simp [commandChecks, encodeChecks, firstFailed_cons, hvalid, hfails])

/-- Settles O46: as for BUILD, clause by clause. -/
theorem cmpslotsFaultsInOrder : Obligations.CmpslotsFaultsInOrder := by
  intro s
  refine ⟨fun hbuf => ?_, fun hbuf hvbuf => ?_, fun hbuf hvbuf hN hslots => ?_, fun hbuf hvbuf hN hslots hvalues => ?_⟩
  · exact exec_of_firstFailed (c := checkBufLen s) (by simp [commandChecks, cmpslotsChecks, firstFailed_cons, hbuf])
  · exact exec_of_firstFailed (c := checkVbufLen s)
      (by simp [commandChecks, cmpslotsChecks, firstFailed_cons, hbuf, hvbuf])
  · exact exec_of_firstFailed (c := checkSlotsInBuf s)
      (by simp [commandChecks, cmpslotsChecks, firstFailed_cons, hbuf, hvbuf, hN.ne', hslots])
  · exact exec_of_firstFailed (c := checkValuesRange s)
      (by simp [commandChecks, cmpslotsChecks, firstFailed_cons, hbuf, hvbuf, hN.ne', hslots, hvalues])

/-- Settles O48: as for CMPSLOTS, with the sequence byte's check before the slots'. -/
theorem patchFaultsInOrder : Obligations.PatchFaultsInOrder := by
  intro s
  refine ⟨fun hbuf => ?_, fun hbuf hvbuf => ?_, fun hbuf hvbuf hseq => ?_, fun hbuf hvbuf hseq hN hslots => ?_,
    fun hbuf hvbuf hN hslots hvalues => ?_⟩
  · exact exec_of_firstFailed (c := checkBufLen s) (by simp [commandChecks, patchChecks, firstFailed_cons, hbuf])
  · exact exec_of_firstFailed (c := checkVbufLen s)
      (by simp [commandChecks, patchChecks, firstFailed_cons, hbuf, hvbuf])
  · exact exec_of_firstFailed (c := checkSeqInBuf s)
      (by simp [commandChecks, patchChecks, firstFailed_cons, hbuf, hvbuf, hseq])
  · exact exec_of_firstFailed (c := checkSlotsInBuf s)
      (by simp [commandChecks, patchChecks, firstFailed_cons, hbuf, hvbuf, hseq, hN.ne', hslots])
  · have hseq : 112 ≤ s.bufLen := by omega
    exact exec_of_firstFailed (c := checkValuesRange s)
      (by simp [commandChecks, patchChecks, firstFailed_cons, hbuf, hvbuf, hseq, hN.ne', hslots, hvalues])

/-! ### PBUF as the layers it holds (30_encoding.md R113) -/

section Wire

variable {s : State}

/-- A byte below BUF_LEN is the one DECODE reads there. -/
theorem packetBytes_getD {k : Nat} (h : k < s.bufLen) : s.packetBytes.getD k 0 = s.pbufAt k := by
  rw [State.packetBytes, pbufRange_getD _ _ _ _ h, Nat.zero_add]

theorem rd32_packetBytes {k : Nat} (h : k + 3 < s.bufLen) : rd32 s.packetBytes k = s.wire32 k := by
  rw [rd32, packetBytes_getD (by omega), packetBytes_getD (by omega), packetBytes_getD (by omega), packetBytes_getD h,
    State.wire32]

theorem rdstr_packetBytes_length {k m : Nat} (h : k + m ≤ s.bufLen) : (rdstr s.packetBytes k m).length = m := by
  have hlen : s.packetBytes.length = s.bufLen := pbufRange_length _ _ _
  rw [rdstr, List.length_take_of_le (by rw [List.length_drop]; omega)]

theorem rdstr_packetBytes_getD {k m i : Nat} (hi : i < m) (h : k + m ≤ s.bufLen) :
    (rdstr s.packetBytes k m).getD i 0 = s.pbufAt (k + i) := by
  rw [rdstr_getD _ _ _ _ hi, packetBytes_getD (by omega)]

/-- A byte register filled from `m` bytes of PBUF holds those bytes. -/
theorem byteReg_packetBytes {k m : Nat} (h : k + m ≤ s.bufLen) (i : Nat) (hi : i < m) :
    (byteReg m (rdstr s.packetBytes k m))[i] = s.pbufAt (k + i) := by
  rw [byteReg_getElem, rdstr_packetBytes_getD hi h]

variable (hsize : 125 ≤ s.bufLen)
include hsize

/-- The RootLayer DECODE reads is the one on the wire (41_layers.md R170). -/
theorem wireRoot_rootDecode : WireRoot s (rootDecode s.packetBytes) :=
  ⟨rd16_packetBytes (by omega), rd16_packetBytes (by omega), byteReg_packetBytes (by omega),
    rd16_packetBytes (by omega), rd32_packetBytes (by omega), byteReg_packetBytes (by omega)⟩

/-- The FramingLayer DECODE reads is the one on the wire (41_layers.md R172). -/
theorem wireFraming_framingDecode : WireFraming s (framingDecode s.packetBytes) :=
  ⟨rd16_packetBytes (by omega), rd32_packetBytes (by omega), byteReg_packetBytes (by omega),
    packetBytes_getD (by omega), rd16_packetBytes (by omega), packetBytes_getD (by omega), packetBytes_getD (by omega),
    rd16_packetBytes (by omega)⟩

/-- The DataLayer header DECODE reads is the one on the wire (41_layers.md R174). -/
theorem wireData_dataDecode : WireData s (dataDecode s.packetBytes) :=
  ⟨rd16_packetBytes (by omega), packetBytes_getD (by omega), packetBytes_getD (by omega), rd16_packetBytes (by omega),
    rd16_packetBytes (by omega), rd16_packetBytes (by omega)⟩

/-! The stages of DECODE depend on three fields of the wire (41_layers.md R171, R173, R174). -/

theorem rootMalformed_packetBytes (hroot : len12 (s.wire16 16) ≠ s.bufLen - 16) :
    rootMalformed (rootDecode s.packetBytes) s.bufLen = true := by
  obtain ⟨-, -, -, hflen, -⟩ := wireRoot_rootDecode hsize
  rwa [rootMalformed_eq_true_iff, hflen]

theorem rootMalformed_packetBytes_false (hroot : len12 (s.wire16 16) = s.bufLen - 16) :
    rootMalformed (rootDecode s.packetBytes) s.bufLen = false := by
  obtain ⟨-, -, -, hflen, -⟩ := wireRoot_rootDecode hsize
  rwa [rootMalformed_eq_false_iff, hflen]

theorem framingMalformed_packetBytes (hframing : len12 (s.wire16 38) ≠ s.bufLen - 38) :
    framingMalformed (framingDecode s.packetBytes) s.bufLen = true := by
  obtain ⟨hflen, -⟩ := wireFraming_framingDecode hsize
  simpa [framingMalformed, hflen] using hframing

theorem framingMalformed_packetBytes_false (hframing : len12 (s.wire16 38) = s.bufLen - 38) :
    framingMalformed (framingDecode s.packetBytes) s.bufLen = false := by
  obtain ⟨hflen, -⟩ := wireFraming_framingDecode hsize
  rwa [framingMalformed_eq_false_iff, hflen]

theorem dataDecode_count : (dataDecode s.packetBytes).count = s.wire16 123 := rd16_packetBytes (by omega)

end Wire

/-! ### DECODE -/

/-- Settles O35: the size check stops DECODE before it parses a layer. -/
theorem decodeOfShortBufferIsMalformed : Obligations.DecodeOfShortBufferIsMalformed :=
  fun _ hcap hshort => exec_decode_of_size hcap ((sizeMalformed_eq_true_iff _).mpr hshort)

/-- Settles O36: the root check stops DECODE after it has stored the root layer. -/
theorem decodeWithWrongRootLength : Obligations.DecodeWithWrongRootLength :=
  fun _ hcap hsize hroot => ⟨_, wireRoot_rootDecode hsize,
    exec_decode_of_root hcap ((sizeMalformed_eq_false_iff _).mpr hsize) (rootMalformed_packetBytes hsize hroot)⟩

/-- Settles O37: the framing check stops DECODE after it has stored the root and the framing layer. -/
theorem decodeWithWrongFramingLength : Obligations.DecodeWithWrongFramingLength := by
  intro s hcap hsize hroot hframing
  refine ⟨_, _, wireRoot_rootDecode hsize, wireFraming_framingDecode hsize, ?_⟩
  have hmal := framingMalformed_packetBytes hsize hframing
  rw [exec_decode, decodeChecks_of_malformed (.inr (.inr hmal)), guarded_of_ok (by simpa using hcap),
    decodeWrites_of_framing ((sizeMalformed_eq_false_iff _).mpr hsize) (rootMalformed_packetBytes_false hsize hroot) hmal]
  rfl

/-- Settles O38: with no check failing DECODE stores all three layers, and the payload from offset 125 on in PV. -/
theorem decodeOfGoodPacketFillsTheLayers : Obligations.DecodeOfGoodPacketFillsTheLayers := by
  intro s hcap hsize hroot hframing hpayload
  have hsizeOk := (sizeMalformed_eq_false_iff _).mpr hsize
  have hrootOk := rootMalformed_packetBytes_false hsize hroot
  have hframingOk := framingMalformed_packetBytes_false hsize hframing
  rw [← dataDecode_count hsize] at hpayload
  have hok : ∀ c ∈ decodeChecks s, c.ok = true := by
    rw [decodeChecks_of_good hsizeOk hrootOk hframingOk]
    simpa using And.intro hcap hpayload
  refine ⟨_, by rw [exec_decode, guarded_of_ok hok, decodeWrites_of_good hsizeOk hrootOk hframingOk], rfl,
    wireRoot_rootDecode hsize, wireFraming_framingDecode hsize, wireData_dataDecode hsize, ?_⟩
  have hlen := rdstr_packetBytes_length hpayload
  refine ⟨fun i hi => ?_, fun i hi => ?_⟩
  · replace hi : i < (dataDecode s.packetBytes).count.toNat := hi
    rw [finish_pvAt, setWellFormed_pvAt, writePv_pvAt, if_pos (by omega), Nat.sub_zero,
      rdstr_packetBytes_getD hi hpayload]
  · replace hi : (dataDecode s.packetBytes).count.toNat ≤ i := hi
    rw [finish_pvAt, setWellFormed_pvAt, writePv_pvAt, if_neg (by omega)]
    rfl

/-- Settles O39: the capacity is checked first at every stage; the payload is checked in the last one alone. -/
theorem decodeFaultsInOrder : Obligations.DecodeFaultsInOrder := by
  intro s
  refine ⟨fun hcap => ?_, fun hcap hsize hroot hframing hpayload => ?_⟩
  · have hfails : (checkBufLen s).ok = false := by simpa using hcap
    refine exec_of_firstFailed (c := checkBufLen s) ?_
    obtain hone | htwo := decodeChecks_eq_or s
    · rw [commandChecks, hone, firstFailed_of_failed hfails]
    · rw [commandChecks, htwo, firstFailed_of_failed hfails]
  · rw [← dataDecode_count hsize] at hpayload
    have hfails : (checkPayload s.packetBytes s.bufLen).ok = false := by simpa using hpayload
    refine exec_of_firstFailed (c := checkPayload s.packetBytes s.bufLen) ?_
    rw [commandChecks, decodeChecks_of_good ((sizeMalformed_eq_false_iff _).mpr hsize)
      (rootMalformed_packetBytes_false hsize hroot) (framingMalformed_packetBytes_false hsize hframing),
      firstFailed_of_ok (by simpa using hcap), firstFailed_of_failed hfails]

/-- Settles O42: at each stage the outcome is known in closed form, and the two buffers are at the same stage. -/
theorem onlyLengthsAndCountAreValidated : Obligations.OnlyLengthsAndCountAreValidated := by
  intro s s' t t' hparams hlen hstatus hrec hpending hrootEq hframingEq hcountEq ht ht'
  have hbufEq : s'.bufLen = s.bufLen := congrArg BitVec.toNat hlen
  have hcapEq : s'.params.pbufSize = s.params.pbufSize := congrArg Params.pbufSize hparams
  obtain hover | hcap := lt_or_ge s.params.pbufSize s.bufLen
  · obtain ⟨hfault, -⟩ := decodeFaultsInOrder s
    obtain ⟨hfault', -⟩ := decodeFaultsInOrder s'
    cases (hfault hover).symm.trans ht
    cases (hfault' (by rwa [hbufEq, hcapEq])).symm.trans ht'
    simp [raised, hstatus, hpending]
  have hcap' : s'.bufLen ≤ s'.params.pbufSize := by rwa [hbufEq, hcapEq]
  obtain hshort | hsize := lt_or_ge s.bufLen 125
  · cases (decodeOfShortBufferIsMalformed s hcap hshort).symm.trans ht
    cases (decodeOfShortBufferIsMalformed s' hcap' (by rwa [hbufEq])).symm.trans ht'
    simp [hstatus, hrec]
  have hsize' : 125 ≤ s'.bufLen := by rwa [hbufEq]
  by_cases hroot : len12 (s.wire16 16) = s.bufLen - 16
  case neg =>
    obtain ⟨r, -, hmal⟩ := decodeWithWrongRootLength s hcap hsize hroot
    obtain ⟨r', -, hmal'⟩ := decodeWithWrongRootLength s' hcap' hsize' (by rwa [hrootEq, hbufEq])
    cases hmal.symm.trans ht
    cases hmal'.symm.trans ht'
    simp [hstatus, hrec]
  have hroot' : len12 (s'.wire16 16) = s'.bufLen - 16 := by rwa [hrootEq, hbufEq]
  by_cases hframing : len12 (s.wire16 38) = s.bufLen - 38
  case neg =>
    obtain ⟨r, f, -, -, hmal⟩ := decodeWithWrongFramingLength s hcap hsize hroot hframing
    obtain ⟨r', f', -, -, hmal'⟩ :=
      decodeWithWrongFramingLength s' hcap' hsize' hroot' (by rwa [hframingEq, hbufEq])
    cases hmal.symm.trans ht
    cases hmal'.symm.trans ht'
    simp [hstatus, hrec]
  have hframing' : len12 (s'.wire16 38) = s'.bufLen - 38 := by rwa [hframingEq, hbufEq]
  obtain hpast | hpayload := lt_or_ge s.bufLen (125 + (s.wire16 123).toNat)
  · obtain ⟨-, hfault⟩ := decodeFaultsInOrder s
    obtain ⟨-, hfault'⟩ := decodeFaultsInOrder s'
    cases (hfault hcap hsize hroot hframing hpast).symm.trans ht
    cases (hfault' hcap' hsize' hroot' hframing' (by rwa [hcountEq, hbufEq])).symm.trans ht'
    simp [raised, hstatus, hpending, hbufEq]
  · obtain ⟨u, hu, hgood, -⟩ := decodeOfGoodPacketFillsTheLayers s hcap hsize hroot hframing hpayload
    obtain ⟨u', hu', hgood', -⟩ :=
      decodeOfGoodPacketFillsTheLayers s' hcap' hsize' hroot' hframing' (by rwa [hcountEq, hbufEq])
    cases hu.symm.trans ht
    cases hu'.symm.trans ht'
    rw [hgood, hgood']
    simp [hstatus, hrec]

/-! ### ENCODE -/

@[simp] theorem fieldImage_length (s : State) : (fieldImage s).length = 125 := by simp [fieldImage]

/-- The packet's image is the field image, the values, and zeros (42_packet.md R205). -/
theorem packetImage_eq_append (s : State) : packetImage s = fieldImage s ++
    (s.values ++ zeros (packetLength s.framing - (125 + s.data.count.toNat))) := by
  simp [packetImage, fieldImage, dataImage]

theorem packetImage_getD_field (s : State) {k : Nat} (hk : k < 125) :
    (packetImage s).getD k 0 = (fieldImage s).getD k 0 := by
  rw [packetImage_eq_append, List.getD_append _ _ _ _ (by simpa using hk)]

theorem packetImage_getD_values (s : State) {k : Nat} (hk : k < s.data.count.toNat) :
    (packetImage s).getD (125 + k) 0 = s.pvAt k := by
  rw [packetImage_eq_append, getD_append_of_length (fieldImage_length s),
    List.getD_append _ _ _ _ (by simpa [State.values] using hk), State.values, pvRange_getD _ _ _ _ hk, Nat.zero_add]

theorem packetImage_getD_zeros (s : State) {k : Nat} (hk : 125 + s.data.count.toNat ≤ k) :
    (packetImage s).getD k 0 = 0 := by
  have hvalues : s.values.length = s.data.count.toNat := pvRange_length _ _ _
  obtain ⟨j, rfl⟩ := Nat.exists_eq_add_of_le hk
  rw [packetImage_eq_append, Nat.add_assoc, getD_append_of_length (fieldImage_length s), getD_append_of_length hvalues,
    List.getD_eq_getElem?_getD]
  exact List.getElem?_getD_replicate_default_eq _ _ _

/-- PBUF from the packet's length on is as before ENCODE. -/
theorem encodeWrites_pbufAt_beyond {s : State} (h : EncodeAccepts s) {i : Nat} (hi : packetLength s.framing ≤ i) :
    (encodeWrites s).pbufAt i = s.pbufAt i := by
  obtain ⟨-, -, hcount⟩ := h
  exact (writePbuf_pbufAt 0 _ _ i).trans (if_neg (by rw [packetImage_length hcount]; omega))

/-- Settles O28: PBUF[0..BUF_LEN) holds the image, from which the layers are read back as stored. -/
theorem encodeWritesThePacketImage : Obligations.EncodeWritesThePacketImage := by
  intro s haccepts
  have hlen : (encodeWrites s).bufLen = packetLength s.framing := encodeWrites_bufLen s
  have hbytes := encodeWrites_packetBytes haccepts
  have ⟨_, _, hcount⟩ := haccepts
  have hsize : 125 ≤ (encodeWrites s).bufLen := by omega
  have hroot := wireRoot_rootDecode hsize
  have hframing := wireFraming_framingDecode hsize
  have hdata := wireData_dataDecode hsize
  rw [hbytes, rootDecode_packetImage] at hroot
  rw [hbytes, framingDecode_packetImage] at hframing
  rw [hbytes, dataDecode_packetImage] at hdata
  refine ⟨_, exec_encode_of_accepts haccepts, rfl, ?_, hroot, hframing, hdata, fun k hk => ?_, fun k hk hkL => ?_,
    fun k hk => ?_⟩
  · rw [← len12_eq_mod]
    exact hlen
  · rw [finish_pbufAt, encodeWrites_pbufAt haccepts (by omega), packetImage_getD_values s hk]
  · exact (encodeWrites_pbufAt haccepts (hkL.trans_eq hlen)).trans (packetImage_getD_zeros s hk)
  · exact encodeWrites_pbufAt_beyond haccepts (hlen.symm.trans_le hk)

/-- The image of a packet is made of what ENCODE reads of it (30_encoding.md Table 30-2). -/
theorem SamePacket.packetImage_eq {s t : State} (h : SamePacket s t) : packetImage t = packetImage s := by
  obtain ⟨-, hroot, hframing, hdata, hpv, -, hresets⟩ := h
  simp only [packetImage, State.values, State.pvRange, hroot, hframing, hdata, hpv, hresets]

/-- Settles O33: an ENCODE that completed leaves the packet held, and writing its image again changes nothing; one that
faulted left all that its checks read. -/
theorem secondEncodeChangesNothing : Obligations.SecondEncodeChangesNothing := by
  intro s t hexec
  obtain ⟨hok, rfl⟩ | ⟨c, -, hfirst, rfl⟩ := exec_next_cases hexec
  · have hsame : SamePacket s (finish (encodeWrites s)) := ⟨rfl, rfl, rfl, rfl, rfl, rfl, rfl⟩
    have haccepts : EncodeAccepts s := (encodeChecks_ok_iff s).mp hok
    have hagain : finish (encodeWrites (finish (encodeWrites s))) = finish (encodeWrites s) := by
      rw [encodeWrites, hsame.packetImage_eq]
      simp [finish, encodeWrites, writePbuf, Memory.write_write]
    exact (exec_encode_of_accepts (hsame.encodeAccepts haccepts)).trans (congrArg _ hagain)
  · exact exec_of_firstFailed (s := takeFault c.code c.info s) hfirst

/-- Settles O34: the port's field image and the head of the packet's image are the same bytes. -/
theorem fieldImageReadsLikeThePacket : Obligations.FieldImageReadsLikeThePacket := by
  intro s t haccepts hexec k hk
  cases (exec_encode_of_accepts haccepts).symm.trans hexec
  have ⟨_, _, hcount⟩ := haccepts
  have haddr : (BitVec.ofNat 16 (0x0100 + k)).toNat = 0x0100 + k := Nat.mod_eq_of_lt (by omega)
  rw [portByte_field _ (by omega) (by omega), haddr, Nat.add_sub_cancel_left, finish_pbufAt,
    encodeWrites_pbufAt haccepts (by omega), packetImage_getD_field s hk]
  rfl

/-! ### BUILD -/

/-- A length below 4096 under the flags nibble 0x7, as a sum and as the spec writes it (41_layers.md R160, R162). -/
theorem flags_or_length {k n : Nat} (h : k + n < 4096) :
    (0x7000 : U16) ||| BitVec.ofNat 16 (k + n) = BitVec.ofNat 16 (0x7000 + k + n) := by
  apply BitVec.eq_of_toNat_eq
  rw [BitVec.toNat_or, BitVec.toNat_ofNat, BitVec.toNat_ofNat, Nat.add_assoc,
    Nat.mod_eq_of_lt (by omega : k + n < 2 ^ 16), Nat.mod_eq_of_lt (by omega : 0x7000 + (k + n) < 2 ^ 16)]
  exact (Nat.two_pow_add_eq_or_of_lt (i := 12) h 7).symm

theorem eq_ofNat_of_toNat_eq {v : U16} {n : Nat} (h : v.toNat = n) : v = BitVec.ofNat 16 n := by
  rw [← h, BitVec.ofNat_toNat, BitVec.setWidth_eq]

/-- The RootLayer of a built packet (41_layers.md R167, 42_packet.md R202). -/
theorem builtRoot_eq {s : State} (h : s.slotCount ≤ 3985) : builtRoot s =
    { pre := 0x0010, post := 0x0000, pid := byteReg 12 (fixstr asciiProtocolId 12),
      flen := BitVec.ofNat 16 (0x7000 + 110 + s.slotCount), vec := 0x00000004, cid := s.args.senderId } := by
  rw [← eq_ofNat_of_toNat_eq (builtRoot_flen_toNat h)]
  rfl

/-- The FramingLayer of a built packet (41_layers.md R168, 42_packet.md R202). -/
theorem builtFraming_eq {s : State} (h : s.slotCount ≤ 3985) : builtFraming s =
    { flen := BitVec.ofNat 16 (0x7000 + 88 + s.slotCount), vec := 0x00000002, name := (builtFraming s).name,
      prio := 100, rsvd := 0x0000, seq := s.args.seq, opt := 0x00, univ := s.args.univ } := by
  rw [← eq_ofNat_of_toNat_eq (builtFraming_flen_toNat h)]
  rfl

/-- The DataLayer header of a built packet (41_layers.md R169, 42_packet.md R202). -/
theorem builtData_eq {s : State} (h : s.slotCount ≤ 3985) : builtData s =
    { flen := BitVec.ofNat 16 (0x7000 + 11 + s.slotCount), vec := 0x02, adt := 0xA1, first := 0x0000, inc := 0x0001,
      count := BitVec.ofNat 16 (s.slotCount + 1) } := by
  rw [← eq_ofNat_of_toNat_eq (builtData_flen_toNat h)]
  rfl

/-- PV after BUILD: the start code and the slots, and every other byte as before (41_layers.md R169). -/
theorem buildWrites_pvAt (s : State) (i : Nat) : (buildWrites s).pvAt i =
    if i < s.slotCount + 1 then (propertyValues s.slotValues).getD i 0 else s.pvAt i := by
  have hlen : (propertyValues s.slotValues).length = s.slotCount + 1 := by simp [propertyValues]
  rw [buildWrites, setWellFormed_pvAt, writePv_pvAt, hlen]
  exact if_congr (by omega) rfl rfl

/-- Byte `1 + i` of a built packet's values is slot `i`. -/
theorem propertyValues_getD_slot (s : State) {i : Nat} (hi : i < s.slotCount) :
    (propertyValues s.slotValues).getD (1 + i) 0 = s.vbufAt (s.srcOffset + i) := by
  rw [propertyValues, Nat.add_comm, List.getD_cons_succ, State.slotValues, vbufRange_getD _ _ _ _ hi]

/-- Settles O24: BUILD ends in its writes, whose layers are known in closed form. -/
theorem buildWritesLayersAndValues : Obligations.BuildWritesLayersAndValues := by
  intro s hmax haccepts
  have hN : s.slotCount ≤ 3985 := slotCount_le hmax haccepts
  refine ⟨_, exec_build_of_accepts haccepts, rfl, builtRoot_eq hN, rfl, builtFraming_eq hN,
    builtFraming_name_getElem s, builtData_eq hN, ?_, fun i hi => ?_, fun i hi => ?_⟩
  · rw [finish_pvAt, buildWrites_pvAt, if_pos (Nat.succ_pos _)]
    rfl
  · rw [finish_pvAt, buildWrites_pvAt, if_pos (by omega), propertyValues_getD_slot s hi]
  · rw [finish_pvAt, buildWrites_pvAt, if_neg (by omega)]

/-- Settles O29: ENCODE writes the fields BUILD stored, each at its offset. -/
theorem buildThenEncodeWritesTheWireTable : Obligations.BuildThenEncodeWritesTheWireTable := by
  intro s hp haccepts
  have hN : s.slotCount ≤ 3985 := slotCount_le hp.1 haccepts
  obtain ⟨u, hencode, -, hlen, hroot, hframing, hdata, hvalues, -⟩ :=
    encodeWritesThePacketImage _ (encodeAccepts_buildWrites hp haccepts)
  change WireRoot u (builtRoot s) at hroot
  change WireFraming u (builtFraming s) at hframing
  change WireData u (builtData s) at hdata
  change u.args.bufLen.toNat = 38 + (builtFraming s).flen.toNat % 4096 at hlen
  have hname := builtFraming_name_getElem s
  have hvalue : ∀ i, i < s.slotCount + 1 → u.pbufAt (125 + i) = (propertyValues s.slotValues).getD i 0 := by
    intro i hi
    rw [hvalues i (hi.trans_eq (builtData_count_toNat hN).symm), finish_pvAt, buildWrites_pvAt, if_pos hi]
  rw [← len12_eq_mod, len12_builtFraming_flen hN] at hlen
  rw [builtRoot_eq hN] at hroot
  rw [builtFraming_eq hN] at hframing
  rw [builtData_eq hN] at hdata
  obtain ⟨hpre, hpost, hpid, hrflen, hrvec, hcid⟩ := hroot
  obtain ⟨hfflen, hfvec, hfname, hprio, hrsvd, hseq, hopt, huniv⟩ := hframing
  obtain ⟨hdflen, hdvec, hadt, hfirst, hinc, hcount⟩ := hdata
  refine ⟨_, u, exec_build_of_accepts haccepts, hencode, by omega, hpre.symm, hpost.symm,
    fun k hk => (hpid k hk).symm.trans (byteReg_getElem _ _ _ hk), ?_, hrvec.symm, fun k hk => (hcid k hk).symm,
    ?_, hfvec.symm, fun k hk => (hfname k hk).symm.trans (hname k hk), hprio.symm, hrsvd.symm, hseq.symm, hopt.symm,
    huniv.symm, ?_, hdvec.symm, hadt.symm, hfirst.symm, hinc.symm, hcount.symm, hvalue 0 (Nat.succ_pos _),
    fun i hi => ?_⟩
  · exact hrflen.symm.trans (flags_or_length (by omega)).symm
  · exact hfflen.symm.trans (flags_or_length (by omega)).symm
  · exact hdflen.symm.trans (flags_or_length (by omega)).symm
  · rw [← propertyValues_getD_slot s hi, ← hvalue (1 + i) (by omega), ← Nat.add_assoc]

/-! ### PATCH -/

/-- Settles O47: PATCH ends in its two writes. -/
theorem patchWritesSequenceAndSlots : Obligations.PatchWritesSequenceAndSlots := by
  intro s haccepts hseq
  refine ⟨_, exec_patch_of_accepts haccepts hseq, rfl, ?_, fun i hi => ?_, fun k hk hout => ?_⟩
  · rw [finish_pbufAt, patchWrites_pbufAt, if_pos rfl]
  · rw [finish_pbufAt, patchWrites_pbufAt, if_neg (by omega), if_pos (by omega), Nat.add_sub_cancel_left,
      State.slotValues, vbufRange_getD _ _ _ _ hi]
  · rw [finish_pbufAt, patchWrites_pbufAt, if_neg hk, if_neg (by omega)]

/-- PATCH, completed or faulted, leaves the held packet (30_encoding.md Table 30-2). -/
theorem samePacket_of_patch {s t : State} (h : exec .patch s = .next t) : SamePacket s t := by
  obtain ⟨-, rfl⟩ | ⟨c, -, -, rfl⟩ := exec_next_cases h <;> exact ⟨rfl, rfl, rfl, rfl, rfl, rfl, rfl⟩

/-- Settles O50: after a PATCH the packet held is the same, so ENCODE writes the same image. -/
theorem encodeAfterPatchUndoesIt : Obligations.EncodeAfterPatchUndoesIt := by
  intro s t u u' haccepts hpatch hencode hencode'
  have hsame : SamePacket s t := samePacket_of_patch hpatch
  have haccepts' : EncodeAccepts t := hsame.encodeAccepts haccepts
  have ⟨_, _, hframing, _⟩ := hsame
  cases (exec_encode_of_accepts haccepts').symm.trans hencode
  cases (exec_encode_of_accepts haccepts).symm.trans hencode'
  refine ⟨congrArg (fun f => BitVec.ofNat 16 (packetLength f)) hframing, fun k hk => ?_⟩
  rw [finish_pbufAt, finish_pbufAt, encodeWrites_pbufAt haccepts' (by rwa [hframing]), encodeWrites_pbufAt haccepts hk,
    hsame.packetImage_eq]

end Sys2Proof.Machine

/-! ### The host port: what each address reads, and what an idle write changes -/

namespace Sys2Proof.Machine

/-! ### The control region -/

/-- A parameter below 2^16 is the value of its register (10_state.md R53). -/
theorem paramReg_toNat {n : Nat} (h : n < 2 ^ 16) : (highByte (paramReg n) ++ lowByte (paramReg n) : U16).toNat = n := by
  rw [highByte_append_lowByte, paramReg, BitVec.toNat_ofNat, Nat.mod_eq_of_lt h]

/-- No step changes the parameters (10_state.md R53). -/
theorem step_params {s t : State} (h : step s = .next t) : t.params = s.params := by
  obtain ⟨-, hcomplete⟩ | rfl | ⟨op, rest, -, -, rfl⟩ := step_next_cases h
  · obtain ⟨i, -, rfl⟩ | ⟨code, info, -, -, rfl⟩ := complete_next_cases hcomplete
    · obtain ⟨-, -, -, hparams, -⟩ := commandWrites_targets i s
      exact hparams
    · rfl
  · rfl
  · cases op with
    | write a v =>
      obtain ⟨-, -, hparams⟩ := hostWrite_keeps a v (popInput rest s)
      exact hparams
    | read a => rfl
    | poll => rfl
    | reset => rfl

/-- Settles O18: in range each parameter is below 2^16, so its two bytes lose nothing. -/
theorem parameterRegistersAreConstant : Obligations.ParameterRegistersAreConstant := by
  refine ⟨fun s ⟨hmax, hroom, hpbuf, hvbuf, hname⟩ => ?_, fun _ _ => step_params⟩
  exact ⟨paramReg_toNat (by omega), paramReg_toNat (by omega), paramReg_toNat (by omega), paramReg_toNat (by omega)⟩

/-- The bits of STATUS (10_state.md R48). -/
theorem statusByte_bits (st : Status) :
    (statusByte st).getLsbD 0 = st.busy ∧ (statusByte st).getLsbD 1 = st.fault ∧ (statusByte st).getLsbD 2 = st.valid ∧
    (statusByte st).getLsbD 3 = st.malformed ∧ (statusByte st).getLsbD 4 = st.cmpEq ∧
    (statusByte st).getLsbD 5 = st.overrun ∧ (statusByte st).getLsbD 6 = false ∧ (statusByte st).getLsbD 7 = false := by
  simp only [statusByte, BitVec.getLsbD_append]
  simp

/-- The flag bits of MAL_INFO (10_state.md R49). -/
theorem malInfoByte_bits (m : MalInfo) :
    (malInfoByte m).getLsbD 3 = m.rootMal ∧ (malInfoByte m).getLsbD 4 = m.frmMal ∧
    (malInfoByte m).getLsbD 5 = m.dataMal ∧ (malInfoByte m).getLsbD 6 = false ∧ (malInfoByte m).getLsbD 7 = false := by
  simp only [malInfoByte, BitVec.getLsbD_append]
  simp

/-- MAL_STAGE is bits 2:0 of MAL_INFO (10_state.md R49). -/
theorem malInfoByte_stage (m : MalInfo) : (malInfoByte m).extractLsb' 0 3 = m.stage.bits := by
  rw [malInfoByte]
  exact BitVec.extractLsb'_append_eq_right

/-! The values of MAL_INFO after a DECODE (42_packet.md R212). -/

@[simp] theorem malInfoByte_zero : malInfoByte MalInfo.zero = 0#8 := rfl
theorem malInfoByte_malSize : malInfoByte malSize = 0x39 := rfl
theorem malInfoByte_malRoot : malInfoByte malRoot = 0x3A := rfl
theorem malInfoByte_malFraming : malInfoByte malFraming = 0x33 := rfl

/-- The four bytes of a 32-bit register, from the highest down, are the register (20_memory.md R87). -/
theorem extractLsb'_append_bytes (v : U32) :
    (v.extractLsb' 24 8 ++ v.extractLsb' 16 8 ++ v.extractLsb' 8 8 ++ v.extractLsb' 0 8 : BitVec (8 + 8 + 8 + 8)) = v :=
  rd32_of_bytes (B := be32 v) (k := 0) rfl rfl rfl rfl

/-- Settles O19: each register is one byte of the control region, and its bits and numbers are those of the tables. -/
theorem statusBitsOnThePort : Obligations.StatusBitsOnThePort := by
  intro s
  obtain ⟨h0, h1, h2, h3, h4, h5, h6, h7⟩ := statusByte_bits s.status
  obtain ⟨m3, m4, m5, m6, m7⟩ := malInfoByte_bits s.malInfo
  exact ⟨h0, h1, h2, h3, h4, h5, h6, h7, malInfoByte_stage _, malInfoByte_stage _, malInfoByte_stage _,
    malInfoByte_stage _, m3, m4, m5, m6, m7, malInfoByte_zero, malInfoByte_malSize, malInfoByte_malRoot,
    malInfoByte_malFraming, rfl, rfl, rfl, rfl, rfl, rfl, rfl, extractLsb'_append_bytes s.faultRec.info, rfl⟩

/-! ### Idle writes -/

/-- An idle write to the control region, CMD apart, is a write to the argument registers (10_state.md R54). -/
theorem hostWrite_of_control {s : State} {a : Addr} (v : Byte) (hidle : s.status.busy = false) (h0 : 0 < a.toNat)
    (h : a.toNat < 0x0100) : hostWrite a v s = { s with args := writeArgs a.toNat v s.args } := by
  rw [hostWrite_of_idle a v hidle, writeIdle, if_neg h0.ne', if_pos h]

/-- Settles O20: the twelve addresses are cases of `writeArgs`, which replaces a high or a low byte. -/
theorem byteWriteChangesHalfAnArgument : Obligations.ByteWriteChangesHalfAnArgument := by
  intro s v hidle
  have hwrite : ∀ a : Addr, 0 < a.toNat → a.toNat < 0x0100 →
      hostWrite a v s = { s with args := writeArgs a.toNat v s.args } := fun _ => hostWrite_of_control v hidle
  exact ⟨hwrite 0x0004 (by decide) (by decide), hwrite 0x0005 (by decide) (by decide),
    hwrite 0x0006 (by decide) (by decide), hwrite 0x0007 (by decide) (by decide),
    hwrite 0x0008 (by decide) (by decide), hwrite 0x0009 (by decide) (by decide),
    hwrite 0x000A (by decide) (by decide), hwrite 0x000B (by decide) (by decide),
    hwrite 0x000E (by decide) (by decide), hwrite 0x000F (by decide) (by decide),
    hwrite 0x0020 (by decide) (by decide), hwrite 0x0021 (by decide) (by decide)⟩

/-- The read-only and the reserved addresses of the control region take no write (10_state.md R54). -/
theorem writeArgs_of_not_writable {n : Nat} (v : Byte) (r : Args) (h : ¬ (0x04 ≤ n ∧ n ≤ 0x21 ∧ n ≠ 0x0D)) :
    writeArgs n v r = r := by
  rw [writeArgs]
  · rw [if_neg (by omega)]
  all_goals (intro; omega)

/-- An idle write to an address that is not CMD and not host-writable changes nothing (10_state.md R38, 20_memory.md R82,
R83). -/
theorem hostWrite_of_not_writable {s : State} {a : Addr} (v : Byte) (hidle : s.status.busy = false) (h0 : a.toNat ≠ 0)
    (h : ¬ hostWritable s.params a) : hostWrite a v s = s := by
  rw [hostWrite_of_idle a v hidle]
  obtain ⟨ha, -⟩ | ⟨-, -, hw⟩ | ⟨hlo, hcap, hhi, -⟩ | ⟨hlo, hcap, hhi, -⟩ | ⟨hlo, hcap, hhi, -⟩ | ⟨-, -, -, -, hw⟩ :=
    writeIdle_cases a v s
  · exact absurd ha h0
  · rw [hw, writeArgs_of_not_writable v s.args fun ⟨hlo, hhi, hres⟩ => h (.inl ⟨hlo, hhi, hres⟩)]
  · exact absurd (.inr (.inl ⟨hlo, hhi, hcap⟩)) h
  · exact absurd (.inr (.inr (.inl ⟨hlo, hhi, hcap⟩))) h
  · exact absurd (.inr (.inr (.inr ⟨hlo, hhi, hcap⟩))) h
  · exact hw

/-- Settles O17: the field registers and PV are at no host-writable address. -/
theorem fieldRegistersIgnoreHostWrites : Obligations.FieldRegistersIgnoreHostWrites :=
  fun _ _ v hidle haddr => hostWrite_of_not_writable v hidle (by omega) (by rw [hostWritable]; omega)

theorem windowByte_of_lt {cap i : Nat} (h : i < cap) (b : Byte) : windowByte cap i b = b := if_pos h

theorem windowByte_of_le {cap i : Nat} (h : cap ≤ i) (b : Byte) : windowByte cap i b = 0x00 := if_neg (by omega)

theorem portByte_of_reserved (s : State) {a : Addr} (h : reservedAddr a) : portByte s a = 0x00 := by
  obtain hcontrol | hfield | hgap : a.toNat < 0x0100 ∨ (0x017D ≤ a.toNat ∧ a.toNat < 0x0200) ∨
      (0x0400 ≤ a.toNat ∧ a.toNat < 0x4000) := by omega
  · rw [portByte_control s hcontrol, controlByte_reserved s (by omega)]
  · rw [portByte_field s (by omega) hfield.2, List.getD_eq_default _ _ (by rw [fieldImage_length]; omega)]
  · exact portByte_gap s hgap.1 hgap.2

theorem portByte_of_beyondCapacity (s : State) {a : Addr} (h : beyondCapacity s.params a) : portByte s a = 0x00 := by
  obtain ⟨hlo, hhi, hcap⟩ | ⟨hlo, hhi, hcap⟩ | ⟨hlo, hhi, hcap⟩ | ⟨hlo, hcap⟩ := h
  · rw [portByte_nameIn s hlo (by omega), windowByte_of_le hcap]
  · rw [portByte_pbuf s hlo (by omega), windowByte_of_le hcap]
  · rw [portByte_vbuf s hlo (by omega), windowByte_of_le hcap]
  · rw [portByte_pv s hlo, windowByte_of_le hcap]

/-- Settles O16: such an address reads 0x00 in its region, and is not host-writable. -/
theorem reservedReadsZeroAndIgnoresWrites : Obligations.ReservedReadsZeroAndIgnoresWrites := by
  intro s a v haddr
  refine ⟨haddr.elim (portByte_of_reserved s) (portByte_of_beyondCapacity s), fun hidle => ?_⟩
  refine hostWrite_of_not_writable v hidle (by omega) ?_
  rw [hostWritable]
  omega

/-! ### What an idle write changes of the bytes the port reads -/

/-- The port's byte at `b` is made of the parameters and of the registers and the memory byte `b` names
(20_memory.md Table 20-1). -/
theorem portByte_congr {s t : State} {b : Addr} (hparams : t.params = s.params)
    (hcontrol : controlByte t b.toNat = controlByte s b.toNat) (hfield : fieldImage t = fieldImage s)
    (hname : 0x0200 ≤ b.toNat → t.nameInAt (b.toNat - 0x0200) = s.nameInAt (b.toNat - 0x0200))
    (hpbuf : 0x4000 ≤ b.toNat → t.pbufAt (b.toNat - 0x4000) = s.pbufAt (b.toNat - 0x4000))
    (hvbuf : 0x8000 ≤ b.toNat → t.vbufAt (b.toNat - 0x8000) = s.vbufAt (b.toNat - 0x8000))
    (hpv : t.pvAt (b.toNat - 0xC000) = s.pvAt (b.toNat - 0xC000)) : portByte t b = portByte s b := by
  rw [portByte, portByte, hparams, hcontrol, hfield, hpv]
  split
  · rfl
  split
  · rfl
  split
  · rw [hname (by omega)]
  split
  · rfl
  split
  · rw [hpbuf (by omega)]
  split
  · rw [hvbuf (by omega)]
  · rfl

/-- After an idle write every address but its own reads as before. -/
theorem portByte_writeIdle_of_ne {a b : Addr} (v : Byte) (s : State) (h0 : a.toNat ≠ 0) (hne : b.toNat ≠ a.toNat) :
    portByte (writeIdle a v s) b = portByte s b := by
  obtain ⟨ha, -⟩ | ⟨-, -, hw⟩ | ⟨hlo, -, -, hw⟩ | ⟨hlo, -, -, hw⟩ | ⟨hlo, -, -, hw⟩ | ⟨-, -, -, -, hw⟩ :=
    writeIdle_cases a v s
  · exact absurd ha h0
  · have hcontrol := controlByte_writeArgs s a.toNat b.toNat v
    rw [if_neg fun h => hne h.1] at hcontrol
    rw [hw]
    exact portByte_congr rfl hcontrol rfl (fun _ => rfl) (fun _ => rfl) (fun _ => rfl) rfl
  · rw [hw]
    refine portByte_congr rfl rfl rfl (fun hb => ?_) (fun _ => rfl) (fun _ => rfl) rfl
    rw [writeNameIn_nameInAt, if_neg (by rw [List.length_singleton]; omega)]
  · rw [hw]
    refine portByte_congr rfl rfl rfl (fun _ => rfl) (fun hb => ?_) (fun _ => rfl) rfl
    rw [writePbuf_pbufAt, if_neg (by rw [List.length_singleton]; omega)]
  · rw [hw]
    refine portByte_congr rfl rfl rfl (fun _ => rfl) (fun _ => rfl) (fun hb => ?_) rfl
    rw [writeVbuf_vbufAt, if_neg (by rw [List.length_singleton]; omega)]
  · rw [hw]

/-- After an idle write its own address reads the byte written, if it is host-writable. -/
theorem portByte_writeIdle_self {a : Addr} (v : Byte) (s : State) (h0 : a.toNat ≠ 0) (h : hostWritable s.params a) :
    portByte (writeIdle a v s) a = v := by
  obtain ⟨ha, -⟩ | ⟨-, hhi, hw⟩ | ⟨hlo, hcap, hhi, hw⟩ | ⟨hlo, hcap, hhi, hw⟩ | ⟨hlo, hcap, hhi, hw⟩ |
    ⟨hlo, hname, hpbuf, hvbuf, -⟩ := writeIdle_cases a v s
  · exact absurd ha h0
  · rw [hw, portByte_control _ hhi, controlByte_writeArgs, if_pos ⟨rfl, by omega⟩]
  · rw [hw, portByte_nameIn _ hlo hhi, writeNameIn_params, windowByte_of_lt (Nat.sub_lt_left_of_lt_add hlo hcap),
      writeNameIn_nameInAt]
    simp
  · rw [hw, portByte_pbuf _ hlo hhi, writePbuf_params, windowByte_of_lt (Nat.sub_lt_left_of_lt_add hlo hcap),
      writePbuf_pbufAt]
    simp
  · rw [hw, portByte_vbuf _ hlo hhi, writeVbuf_params, windowByte_of_lt (Nat.sub_lt_left_of_lt_add hlo hcap),
      writeVbuf_vbufAt]
    simp
  · omega

/-- SENDER_ID reads byte by byte from 0x0010 on (10_state.md Table 10-4). -/
theorem controlByte_senderId (s : State) {k : Nat} (hk : k < 16) : controlByte s (0x10 + k) = s.args.senderId[k] := by
  have harm : controlByte s (0x10 + k) = s.args.senderId.toList.getD (0x10 + k - 0x10) 0x00 := by
    rw [controlByte]
    · rw [if_pos (by omega)]
    all_goals (intro; omega)
  rw [harm, Nat.add_sub_cancel_left]
  simp [List.getD_eq_getElem?_getD, hk]

/-- Settles O15: an idle write is read back by `portByte_writeIdle_self` and `portByte_writeIdle_of_ne`; the windows and the
registers are regions of the port's map. -/
theorem idleWriteThenRead : Obligations.IdleWriteThenRead := by
  refine ⟨fun s a b v hidle ha => ?_, fun s => ⟨fun i hi h => ?_, fun i hi h => ?_, fun i hi h => ?_, fun i hi h => ?_,
    highByte_append_lowByte _, highByte_append_lowByte _, highByte_append_lowByte _, highByte_append_lowByte _, rfl,
    highByte_append_lowByte _, fun k hk => ?_, highByte_append_lowByte _⟩⟩
  · have h0 : a.toNat ≠ 0 := fun h => ha (BitVec.eq_of_toNat_eq h)
    constructor
    · rintro rfl hwritable
      rw [hostWrite_of_idle _ v hidle, portByte_writeIdle_self v s h0 hwritable]
    · rintro (hne | hnot)
      · rw [hostWrite_of_idle a v hidle, portByte_writeIdle_of_ne v s h0 fun h => hne (BitVec.eq_of_toNat_eq h)]
      · rw [hostWrite_of_not_writable v hidle h0 hnot]
  · have htoNat : (BitVec.ofNat 16 (0x0200 + i)).toNat = 0x0200 + i := Nat.mod_eq_of_lt (by omega)
    rw [portByte_nameIn s (by omega) (by omega), htoNat, Nat.add_sub_cancel_left, windowByte_of_lt hi]
  · have htoNat : (BitVec.ofNat 16 (0x4000 + i)).toNat = 0x4000 + i := Nat.mod_eq_of_lt (by omega)
    rw [portByte_pbuf s (by omega) (by omega), htoNat, Nat.add_sub_cancel_left, windowByte_of_lt hi]
  · have htoNat : (BitVec.ofNat 16 (0x8000 + i)).toNat = 0x8000 + i := Nat.mod_eq_of_lt (by omega)
    rw [portByte_vbuf s (by omega) (by omega), htoNat, Nat.add_sub_cancel_left, windowByte_of_lt hi]
  · have htoNat : (BitVec.ofNat 16 (0xC000 + i)).toNat = 0xC000 + i := Nat.mod_eq_of_lt (by omega)
    rw [portByte_pv s (by omega), htoNat, Nat.add_sub_cancel_left, windowByte_of_lt hi]
  · have htoNat : (BitVec.ofNat 16 (0x0010 + k)).toNat = 0x0010 + k := Nat.mod_eq_of_lt (by omega)
    rw [portByte_control s (by omega), htoNat, controlByte_senderId s hk]

/-! ### After reset -/

@[simp] theorem highByte_zero : highByte 0#16 = 0#8 := by decide
@[simp] theorem lowByte_zero : lowByte 0#16 = 0#8 := by decide
@[simp] theorem statusByte_zero : statusByte Status.zero = 0#8 := by decide

/-- After reset every register of the control region reads 0x00, the parameter registers apart (10_state.md R57). -/
theorem controlByte_resetWith (p : Params) {n : Nat} (h : ¬ (0x30 ≤ n ∧ n ≤ 0x37)) :
    controlByte (State.resetWith p) n = 0x00 := by
  obtain hres | hid | ⟨hlo, hhi⟩ | ⟨hlo, hhi⟩ | ⟨hlo, hhi⟩ | ⟨hlo, hhi⟩ :
      (n = 0x00 ∨ n = 0x0D ∨ n = 0x22 ∨ n = 0x23 ∨ (0x29 ≤ n ∧ n < 0x30) ∨ 0x38 ≤ n) ∨ (0x10 ≤ n ∧ n < 0x20) ∨
      (0x01 ≤ n ∧ n ≤ 0x0C) ∨ (0x0E ≤ n ∧ n ≤ 0x0F) ∨ (0x20 ≤ n ∧ n ≤ 0x21) ∨ (0x24 ≤ n ∧ n ≤ 0x28) := by omega
  · exact controlByte_reserved _ hres
  · obtain ⟨k, rfl⟩ := Nat.exists_eq_add_of_le hid.1
    have hk : k < 16 := by omega
    exact (controlByte_senderId _ hk).trans (Vector.getElem_replicate hk)
  all_goals
    interval_cases n <;> simp [controlByte, State.resetWith, Args.zero, FaultRec.zero, FaultCode.byte]

theorem rootImage_zero : rootImage RootLayer.zero = zeros 38 := rfl
theorem framingImage_zero : framingImage FramingLayer.zero = zeros 77 := rfl
theorem dataHeaderImage_zero : dataHeaderImage DataLayer.zero = zeros 10 := rfl

theorem fieldImage_resetWith (p : Params) : fieldImage (State.resetWith p) = zeros 125 := calc
  fieldImage (State.resetWith p) = zeros 38 ++ zeros 77 ++ zeros 10 := by
    rw [← rootImage_zero, ← framingImage_zero, ← dataHeaderImage_zero]
    rfl
  _ = zeros 125 := by simp only [zeros, List.replicate_append_replicate]

theorem portByte_resetWith (p : Params) {a : Addr} (ha : a.toNat < 0x0200) (h : ¬ (0x0030 ≤ a.toNat ∧ a.toNat ≤ 0x0037)) :
    portByte (State.resetWith p) a = 0x00 := by
  obtain hcontrol | hfield := lt_or_ge a.toNat 0x0100
  · rw [portByte_control _ hcontrol, controlByte_resetWith p h]
  · rw [portByte_field _ hfield ha, fieldImage_resetWith, List.getD_eq_getElem?_getD]
    exact List.getElem?_getD_replicate_default_eq _ _ _

/-- Settles O56: the reset state is that of the default parameters, and every byte of its registers is 0x00. -/
theorem everyRegisterIsZeroAfterReset : Obligations.EveryRegisterIsZeroAfterReset :=
  ⟨rfl, fun _ => portByte_resetWith Config.defaults, fun p => ⟨rfl, fun _ => portByte_resetWith p⟩⟩

end Sys2Proof.Machine
